-- ==== Sys2Proof/Word.lean ====
section
/-! DEFINITION. The word types of the codec block (spec 00_scope R10): every value is an unsigned bit vector
of the width its wire field or register has. -/

namespace Sys2Proof

/-- A byte: 8 bits in every space of the block (R10, R50). -/
abbrev Byte := BitVec 8

/-- A 16-bit field or register. -/
abbrev Half := BitVec 16

/-- An address of the host's map: 18 bits (R58). -/
abbrev HostAddr := BitVec 18

end Sys2Proof
end

