-- ==== Sys2Proof/Config.lean ====
section
/-! DEFINITION. What an implementation of the block fixes: the constants of spec 00_scope R6 and R7, the command
codes of 30_encoding R72, the result codes of 60_exceptions R221, the CRC table of 40_crc R102, and the three
parameters that R9 leaves open. -/

namespace Sys2Proof

/-- `ESC_REPEAT` (R9, R175 (d)): what the parser does with a 0x7D that arrives while the escape latch is set. -/
inductive EscRepeat where
  /-- The byte is data: 0x5D is consumed and the latch is cleared. -/
  | data
  /-- The byte is a prefix: it is consumed and the latch stays set. -/
  | latch
  deriving DecidableEq, Repr

/-- The parameters the spec leaves open (R9). They are fixed for a machine: no step writes them (log 4). -/
structure Params where
  /-- `BUF_CAP`: capacity in bytes of `IBUF` and of `OBUF`. -/
  bufCap : Nat
  /-- `CNT_W`: width in bits of the two error counters. -/
  cntW : Nat
  /-- `ESC_REPEAT`. -/
  escRepeat : EscRepeat
  deriving DecidableEq, Repr

/-- The ranges of R9 and U10: `520 <= BUF_CAP <= 65535` and `1 <= CNT_W <= 64`. -/
def Params.ok (p : Params) : Bool :=
  decide (520 ≤ p.bufCap ∧ p.bufCap ≤ 65535 ∧ 1 ≤ p.cntW ∧ p.cntW ≤ 64)

namespace Config

/-- The parameters at reset: the defaults of R9, and `data` for `ESC_REPEAT`, which has no default.
DESIGN CHOICE (log 4): unsafe for a claim about a run from reset only; a claim about every state holds for
every value. -/
def resetParams : Params := { bufCap := 1024, cntW := 32, escRepeat := .data }

/-- `CRC_POLY` (R6). -/
def crcPoly : Half := 0x1021
/-- `CRC_INIT` (R6). -/
def crcInit : Half := 0xFFFF
/-- `START_DELIM` (R6). -/
def startDelim : Byte := 0x7E
/-- `ESC_BYTE` (R6). -/
def escByte : Byte := 0x7D
/-- `ESC_XOR` (R6). -/
def escXor : Byte := 0x20
/-- `ESC_SET` (R6): the bytes the encoder escapes. -/
def escSet : List Byte := [0x7E, 0x7D, 0x11, 0x13]
/-- `MAX_FRAME_LEN` (R6): the largest body length the parser accepts. -/
def maxFrameLen : Nat := 256
/-- `FBUF_CAP` (R9). -/
def fbufCap : Nat := 256
/-- `IDX_CAP` (R9). -/
def idxCap : Nat := 255
/-- `FID_RESET` (R9). -/
def fidReset : Byte := 1
/-- `HEADER_SIZE` (R6). -/
def headerSize : Nat := 13
/-- `PROTO_VERSION` (R7). -/
def protoVersion : Byte := 0x01
/-- `TYPE_DATA` (R6). -/
def typeData : Byte := 0x01
/-- `TYPE_NACK` (R6). -/
def typeNack : Byte := 0x02
/-- `TYPE_DONE` (R6). -/
def typeDone : Byte := 0x03
/-- `FT_TX_REQUEST` (R6). -/
def ftTxRequest : Byte := 0x10
/-- `FT_AT_COMMAND` (R6). -/
def ftAtCommand : Byte := 0x08
/-- `FT_RX_PACKET` (R6). -/
def ftRxPacket : Byte := 0x90
/-- `FT_EXPLICIT_RX` (R6). -/
def ftExplicitRx : Byte := 0x91
/-- `FT_TX_STATUS` (R6). -/
def ftTxStatus : Byte := 0x8B
/-- `FT_AT_RESPONSE` (R6). -/
def ftAtResponse : Byte := 0x88

/-- `BROADCAST_ADDR64` (R6): an ordinary value of `ADDR64` (R153), which the block never compares with. -/
def broadcastAddr64 : BitVec 64 := 0x000000000000FFFF
/-- `UNKNOWN_ADDR16` (R6): an ordinary value of `ADDR16` (R153), which the block never compares with. -/
def unknownAddr16 : Half := 0xFFFE

/-- `CRC_TABLE[0..32)`, as R102 prints it. -/
def crcTable0 : List Half :=
  [0x0000, 0x1021, 0x2042, 0x3063, 0x4084, 0x50A5, 0x60C6, 0x70E7,
   0x8108, 0x9129, 0xA14A, 0xB16B, 0xC18C, 0xD1AD, 0xE1CE, 0xF1EF,
   0x1231, 0x0210, 0x3273, 0x2252, 0x52B5, 0x4294, 0x72F7, 0x62D6,
   0x9339, 0x8318, 0xB37B, 0xA35A, 0xD3BD, 0xC39C, 0xF3FF, 0xE3DE]

/-- `CRC_TABLE[32..64)`, as R102 prints it. -/
def crcTable1 : List Half :=
  [0x2462, 0x3443, 0x0420, 0x1401, 0x64E6, 0x74C7, 0x44A4, 0x5485,
   0xA56A, 0xB54B, 0x8528, 0x9509, 0xE5EE, 0xF5CF, 0xC5AC, 0xD58D,
   0x3653, 0x2672, 0x1611, 0x0630, 0x76D7, 0x66F6, 0x5695, 0x46B4,
   0xB75B, 0xA77A, 0x9719, 0x8738, 0xF7DF, 0xE7FE, 0xD79D, 0xC7BC]

/-- `CRC_TABLE[64..96)`, as R102 prints it. -/
def crcTable2 : List Half :=
  [0x48C4, 0x58E5, 0x6886, 0x78A7, 0x0840, 0x1861, 0x2802, 0x3823,
   0xC9CC, 0xD9ED, 0xE98E, 0xF9AF, 0x8948, 0x9969, 0xA90A, 0xB92B,
   0x5AF5, 0x4AD4, 0x7AB7, 0x6A96, 0x1A71, 0x0A50, 0x3A33, 0x2A12,
   0xDBFD, 0xCBDC, 0xFBBF, 0xEB9E, 0x9B79, 0x8B58, 0xBB3B, 0xAB1A]

/-- `CRC_TABLE[96..128)`, as R102 prints it. -/
def crcTable3 : List Half :=
  [0x6CA6, 0x7C87, 0x4CE4, 0x5CC5, 0x2C22, 0x3C03, 0x0C60, 0x1C41,
   0xEDAE, 0xFD8F, 0xCDEC, 0xDDCD, 0xAD2A, 0xBD0B, 0x8D68, 0x9D49,
   0x7E97, 0x6EB6, 0x5ED5, 0x4EF4, 0x3E13, 0x2E32, 0x1E51, 0x0E70,
   0xFF9F, 0xEFBE, 0xDFDD, 0xCFFC, 0xBF1B, 0xAF3A, 0x9F59, 0x8F78]

/-- `CRC_TABLE[128..160)`, as R102 prints it. -/
def crcTable4 : List Half :=
  [0x9188, 0x81A9, 0xB1CA, 0xA1EB, 0xD10C, 0xC12D, 0xF14E, 0xE16F,
   0x1080, 0x00A1, 0x30C2, 0x20E3, 0x5004, 0x4025, 0x7046, 0x6067,
   0x83B9, 0x9398, 0xA3FB, 0xB3DA, 0xC33D, 0xD31C, 0xE37F, 0xF35E,
   0x02B1, 0x1290, 0x22F3, 0x32D2, 0x4235, 0x5214, 0x6277, 0x7256]

/-- `CRC_TABLE[160..192)`, as R102 prints it. -/
def crcTable5 : List Half :=
  [0xB5EA, 0xA5CB, 0x95A8, 0x8589, 0xF56E, 0xE54F, 0xD52C, 0xC50D,
   0x34E2, 0x24C3, 0x14A0, 0x0481, 0x7466, 0x6447, 0x5424, 0x4405,
   0xA7DB, 0xB7FA, 0x8799, 0x97B8, 0xE75F, 0xF77E, 0xC71D, 0xD73C,
   0x26D3, 0x36F2, 0x0691, 0x16B0, 0x6657, 0x7676, 0x4615, 0x5634]

/-- `CRC_TABLE[192..224)`, as R102 prints it. -/
def crcTable6 : List Half :=
  [0xD94C, 0xC96D, 0xF90E, 0xE92F, 0x99C8, 0x89E9, 0xB98A, 0xA9AB,
   0x5844, 0x4865, 0x7806, 0x6827, 0x18C0, 0x08E1, 0x3882, 0x28A3,
   0xCB7D, 0xDB5C, 0xEB3F, 0xFB1E, 0x8BF9, 0x9BD8, 0xABBB, 0xBB9A,
   0x4A75, 0x5A54, 0x6A37, 0x7A16, 0x0AF1, 0x1AD0, 0x2AB3, 0x3A92]

/-- `CRC_TABLE[224..256)`, as R102 prints it. -/
def crcTable7 : List Half :=
  [0xFD2E, 0xED0F, 0xDD6C, 0xCD4D, 0xBDAA, 0xAD8B, 0x9DE8, 0x8DC9,
   0x7C26, 0x6C07, 0x5C64, 0x4C45, 0x3CA2, 0x2C83, 0x1CE0, 0x0CC1,
   0xEF1F, 0xFF3E, 0xCF5D, 0xDF7C, 0xAF9B, 0xBFBA, 0x8FD9, 0x9FF8,
   0x6E17, 0x7E36, 0x4E55, 0x5E74, 0x2E93, 0x3EB2, 0x0ED1, 0x1EF0]

/-- `CRC_TABLE` (R26, R102): the read-only memory of 256 entries of 16 bits, the same before and after reset. -/
def crcTable : List Half :=
  crcTable0 ++ crcTable1 ++ crcTable2 ++ crcTable3 ++ crcTable4 ++ crcTable5 ++ crcTable6 ++ crcTable7

end Config

/-- The result codes of the command unit (R221). -/
inductive CmdError where
  /-- `E_ILLEGAL_CMD`. -/
  | illegalCmd
  /-- `E_SHORT`. -/
  | short
  /-- `E_CRC`. -/
  | crc
  /-- `E_VERSION`. -/
  | version
  /-- `E_TYPE`. -/
  | type
  /-- `E_LENGTH`. -/
  | length
  /-- `E_RANGE`. -/
  | range
  /-- `E_OVERFLOW`. -/
  | overflow
  deriving DecidableEq, Repr

/-- The value a result code has in `ERR` (R221). -/
def CmdError.code : CmdError → Byte
  | .illegalCmd => 0x01
  | .short => 0x02
  | .crc => 0x03
  | .version => 0x04
  | .type => 0x05
  | .length => 0x06
  | .range => 0x07
  | .overflow => 0x08

/-- The parser's error codes (R221). They appear in `ERR` events only, never in the register `ERR`. -/
inductive ParseError where
  /-- `P_LENGTH`. -/
  | length
  /-- `P_CHECKSUM`. -/
  | checksum
  /-- `P_SHORT_FRAME`. -/
  | shortFrame
  deriving DecidableEq, Repr

/-- The value a parser error has in its `ERR` event (R221). -/
def ParseError.code : ParseError → Byte
  | .length => 0x11
  | .checksum => 0x12
  | .shortFrame => 0x13

end Sys2Proof
end

