-- ==== Sys2Proof/Machine/Bytes.lean ====
section
/-! DEFINITION. Byte strings (00_scope R11): big-endian fields (20_memory R51) and the byte sum. -/

namespace Sys2Proof.Machine

/-- `s[o]`. Every use is behind a length check (R61), so the value past the end is never read. -/
def byteAt (s : List Byte) (o : Nat) : Byte := s.getD o 0

/-- `s[a..a+n)` (R11). -/
def slice (s : List Byte) (a n : Nat) : List Byte := (s.drop a).take n

/-- `get16(s, o)` (R11): `s[o]` is the most significant byte. -/
def get16 (s : List Byte) (o : Nat) : Half := byteAt s o ++ byteAt s (o + 1)

/-- `get32(s, o)` (R11). -/
def get32 (s : List Byte) (o : Nat) : BitVec 32 := get16 s o ++ get16 s (o + 2)

/-- `get64(s, o)` (R11). -/
def get64 (s : List Byte) (o : Nat) : BitVec 64 := get32 s o ++ get32 s (o + 4)

/-- `be16(v)` (R11). -/
def be16 (v : Half) : List Byte := [v.extractLsb' 8 8, v.extractLsb' 0 8]

/-- `be32(v)` (R11). -/
def be32 (v : BitVec 32) : List Byte := be16 (v.extractLsb' 16 16) ++ be16 (v.extractLsb' 0 16)

/-- `be64(v)` (R11). -/
def be64 (v : BitVec 64) : List Byte := be32 (v.extractLsb' 32 32) ++ be32 (v.extractLsb' 0 32)

/-- The 16-bit fields at `o`, `o + 2`, ..., `n` of them: the index list of a NACK (R85). -/
def getHalves (s : List Byte) (o : Nat) : Nat → List Half
  | 0 => []
  | n + 1 => get16 s o :: getHalves s (o + 2) n

/-- `sum8(s)` (R11): the sum of the bytes modulo 256. -/
def sum8 : List Byte → Byte
  | [] => 0
  | b :: t => b + sum8 t

end Sys2Proof.Machine
end

