-- ==== Sys2Proof/Machine/Crc16.lean ====
section
/-! DEFINITION. The CRC function of 40_crc R101, its table-driven form (R103), and verify and append (R104). -/

namespace Sys2Proof.Machine

/-- One turn of the inner loop of R101: shift left by one, and xor the polynomial when the bit shifted out is 1. -/
def crcBit (c : Half) : Half := if c.msb then (c <<< 1) ^^^ Config.crcPoly else c <<< 1

/-- The inner loop of R101 and R102: eight turns. -/
def crcLoop (c : Half) : Half := crcBit (crcBit (crcBit (crcBit (crcBit (crcBit (crcBit (crcBit c)))))))

/-- One byte of R101: the byte enters at the high end, then the inner loop runs. -/
def crcByte (c : Half) (b : Byte) : Half := crcLoop (c ^^^ (b ++ (0 : Byte) : Half))

/-- R101 run over `s` from the register value `c` (R108 (d)). -/
def crcFrom (c : Half) : List Byte → Half
  | [] => c
  | b :: t => crcFrom (crcByte c b) t

/-- `crc16(s)` (R101). -/
def crc16 (s : List Byte) : Half := crcFrom Config.crcInit s

/-- One byte of the table-driven form (R103). -/
def crcTableByte (c : Half) (b : Byte) : Half :=
  (c <<< 8) ^^^ Config.crcTable.getD ((c.extractLsb' 8 8 ^^^ b).toNat) 0

/-- The table-driven form (R103) over `s` from the register value `c`. -/
def crcTableFrom (c : Half) : List Byte → Half
  | [] => c
  | b :: t => crcTableFrom (crcTableByte c b) t

/-- `verify(s)` (R104). -/
def crcVerify (s : List Byte) : Bool :=
  decide (2 ≤ s.length) && get16 s (s.length - 2) == crc16 (s.take (s.length - 2))

/-- `append(s)` (R104). -/
def crcAppend (s : List Byte) : List Byte := s ++ be16 (crc16 s)

end Sys2Proof.Machine
end

