-- ==== Sys2Proof/Machine/Layout.lean ====
section
/-! DEFINITION. The layouts of the three wire formats as byte strings: fragment messages (30_encoding R83 to R86,
41_fragment_codec R121), API-frame bodies (R77 to R82, R154), and the framing with checksum and escaping
(R73, R74, R151). -/

namespace Sys2Proof.Machine

/-- `hdr` (R83, R121): the 13-byte fragment header. Version and tag are constants. -/
def hdr (msgId : Half) (totLen : BitVec 32) (fragIdx fragCnt : Half) (payLen : Byte) : List Byte :=
  [Config.protoVersion, Config.typeData] ++ be16 msgId ++ be32 totLen ++ be16 fragIdx ++ be16 fragCnt ++ [payLen]

/-- Header and payload of a DATA fragment (R84), what its CRC covers. -/
def dataHead (msgId : Half) (totLen : BitVec 32) (fragIdx fragCnt : Half) (payload : List Byte) : List Byte :=
  hdr msgId totLen fragIdx fragCnt (BitVec.ofNat 8 payload.length) ++ payload

/-- A NACK message before its CRC (R85). -/
def nackHead (msgId : Half) (indices : List Half) : List Byte :=
  [Config.protoVersion, Config.typeNack] ++ be16 msgId ++ [BitVec.ofNat 8 indices.length] ++ indices.flatMap be16

/-- A DONE message before its CRC (R86). -/
def doneHead (msgId : Half) : List Byte := [Config.protoVersion, Config.typeDone] ++ be16 msgId

/-- `data` (R121). -/
def dataMsg (msgId : Half) (totLen : BitVec 32) (fragIdx fragCnt : Half) (payload : List Byte) : List Byte :=
  crcAppend (dataHead msgId totLen fragIdx fragCnt payload)

/-- `nack` (R121). -/
def nackMsg (msgId : Half) (indices : List Half) : List Byte := crcAppend (nackHead msgId indices)

/-- `done` (R121). -/
def doneMsg (msgId : Half) : List Byte := crcAppend (doneHead msgId)

/-- `tx_body` (R77, R154). -/
def txBody (frameId : Byte) (dst64 : BitVec 64) (dst16 : Half) (radius options : Byte) (d : List Byte) : List Byte :=
  [Config.ftTxRequest, frameId] ++ be64 dst64 ++ be16 dst16 ++ [radius, options] ++ d

/-- `at_body` (R78, R154). -/
def atBody (frameId : Byte) (atCode : Half) (p : List Byte) : List Byte :=
  [Config.ftAtCommand, frameId] ++ be16 atCode ++ p

/-- The body of a Receive Packet (R79). -/
def rxPacketBody (src64 : BitVec 64) (src16 : Half) (options : Byte) (d : List Byte) : List Byte :=
  [Config.ftRxPacket] ++ be64 src64 ++ be16 src16 ++ [options] ++ d

/-- The body of an Explicit Rx (R80). -/
def explicitRxBody (src64 : BitVec 64) (src16 : Half) (srcEp dstEp : Byte) (cluster profile : Half) (options : Byte)
    (d : List Byte) : List Byte :=
  [Config.ftExplicitRx] ++ be64 src64 ++ be16 src16 ++ [srcEp, dstEp] ++ be16 cluster ++ be16 profile ++ [options] ++ d

/-- The body of a Transmit Status (R81). -/
def txStatusBody (frameId : Byte) (dst16 : Half) (retries deliveryStatus discoveryStatus : Byte) : List Byte :=
  [Config.ftTxStatus, frameId] ++ be16 dst16 ++ [retries, deliveryStatus, discoveryStatus]

/-- The body of an AT Response (R82). -/
def atResponseBody (frameId : Byte) (atCode : Half) (status : Byte) (d : List Byte) : List Byte :=
  [Config.ftAtResponse, frameId] ++ be16 atCode ++ [status] ++ d

/-- `cksum(B)` (R151, R156). -/
def cksum (body : List Byte) : Byte := 0xFF - sum8 body

/-- `esc1(x)` (R74, R151). -/
def esc1 (x : Byte) : List Byte := if Config.escSet.contains x then [Config.escByte, x ^^^ Config.escXor] else [x]

/-- `escape(s)` (R151). -/
def escape (s : List Byte) : List Byte := s.flatMap esc1

/-- The unescaped form after the delimiter (R73): length, body, checksum. -/
def unescapedTail (body : List Byte) : List Byte := be16 (BitVec.ofNat 16 body.length) ++ body ++ [cksum body]

/-- `wire(B)` (R74, R151). -/
def wire (body : List Byte) : List Byte := [Config.startDelim] ++ escape (unescapedTail body)

end Sys2Proof.Machine
end

