-- ==== Sys2Proof/Machine/State.lean ====
section
/-! DEFINITION. The state of the block (10_state), the host's side of the port as the model holds it, the ways a
step can stop, and the state after reset (R47). -/

namespace Sys2Proof.Machine

/-- The parser's states (R28). -/
inductive PState where
  | waitingForStart
  | lengthMsb
  | lengthLsb
  | frameData
  | checksum
  deriving DecidableEq, Repr

/-- The byte spaces of the block (R50). -/
inductive Space where
  | ibuf
  | obuf
  | fbuf
  deriving DecidableEq, Repr

/-- A byte space as a list of (index, byte) pairs, the indices strictly rising. An index that is not listed holds
no value (R47, R252; log 2). -/
abbrev Memory := List Host.Cell

/-- The index file (R24) as a list of (index, value) pairs, the indices strictly rising and no value zero. An
entry that is not listed holds zero (log 1). -/
abbrev IndexFile := List (Nat × Half)

/-- The four fields only an Explicit Rx has (R46, R192). -/
structure ExplicitFields where
  srcEp : Byte
  dstEp : Byte
  cluster : Half
  profile : Half
  deriving DecidableEq, Repr

/-- An event of the parser (R46). `explicit = 1` is `some` of the four extra fields. -/
inductive Event where
  | txRequest (frameId : Byte) (dst64 : BitVec 64) (dst16 : Half) (radius options : Byte) (rfData : List Byte)
  | rxPacket (src64 : BitVec 64) (src16 : Half) (options : Byte) (rfData : List Byte) (explicit : Option ExplicitFields)
  | txStatus (frameId : Byte) (dst16 : Half) (retries deliveryStatus discoveryStatus : Byte)
  | atCommand (frameId : Byte) (atCode : Half) (param : List Byte)
  | atResponse (frameId : Byte) (atCode : Half) (status : Byte) (data : List Byte)
  | unknownFrame (type : Byte) (body : List Byte)
  | error (code : Byte)
  deriving DecidableEq, Repr

/-- What the host does at the block's port (R71), and the hardware reset input (R251). The data of a write stands
in the low bits of `data`: the register's width says how many (log 10). -/
inductive HostAction where
  | write (addr : HostAddr) (data : BitVec 64)
  | read (addr : HostAddr)
  | hardReset
  deriving DecidableEq, Repr

/-- What the block gives the host: the event of a parser step (R45) and the value of a read, zero-extended (R213). -/
inductive Output where
  | event (e : Event)
  | readData (addr : HostAddr) (value : BitVec 64)
  deriving DecidableEq, Repr

/-- What the command unit owns (R20 (a), R21, R24, R25, R34, R35, R37, R38). `CMD` stores nothing (R41). -/
structure CommandUnit where
  /-- `VER` (R21). -/
  ver : Byte
  /-- `TYPE` (R21). -/
  type : Byte
  /-- `MSGID` (R21). -/
  msgId : Half
  /-- `TOTLEN` (R21). -/
  totLen : BitVec 32
  /-- `FRAGIDX` (R21). -/
  fragIdx : Half
  /-- `FRAGCNT` (R21). -/
  fragCnt : Half
  /-- `PAYLEN` (R21). -/
  payLen : Byte
  /-- `NCNT` (R21). -/
  nCnt : Byte
  /-- `CRC` (R21). -/
  crc : Half
  /-- `FID` (R21). -/
  fid : Byte
  /-- `ADDR64` (R21). -/
  addr64 : BitVec 64
  /-- `ADDR16` (R21). -/
  addr16 : Half
  /-- `RADIUS` (R21). -/
  radius : Byte
  /-- `TXOPT` (R21). -/
  txOpt : Byte
  /-- `ATCODE` (R21): the first character in bits 15:8. -/
  atCode : Half
  /-- `ILEN` (R21): number of valid bytes in `IBUF`. -/
  iLen : Half
  /-- `OLEN` (R21): number of valid bytes in `OBUF`. -/
  oLen : Half
  /-- `OK` (R34). -/
  ok : Bool
  /-- `ERR` (R35). -/
  err : Byte
  /-- `IDX` (R24). -/
  idxFile : IndexFile
  /-- `IBUF` (R25). -/
  ibuf : Memory
  /-- `OBUF` (R25). -/
  obuf : Memory
  /-- `NEXT_FID` (R37). -/
  nextFid : Byte
  /-- `CNT_CRC_FAIL` (R38): a number below 2^`CNT_W`. -/
  cntCrcFail : Nat
  deriving DecidableEq, Repr

/-- What the parser unit owns (R20 (b), R28 to R33, R39). `RXDATA` stores nothing (R42). -/
structure ParserUnit where
  /-- `pstate` (R28). -/
  pstate : PState
  /-- `esc` (R32). -/
  esc : Bool
  /-- `flen` (R29). -/
  flen : Half
  /-- `idx` (R30). -/
  idx : BitVec 9
  /-- `sum` (R31). -/
  sum : Byte
  /-- `FBUF` (R33). -/
  fbuf : Memory
  /-- `CNT_FRAME_ERR` (R39): a number below 2^`CNT_W`. -/
  cntFrameErr : Nat
  deriving DecidableEq, Repr

/-- The state. `cmd` and `par` are the block's; the other fields are the model's own. -/
structure State where
  /-- The parameters of R9 (log 4). No step writes them. -/
  cfg : Params
  /-- The command unit. -/
  cmd : CommandUnit
  /-- The parser unit. -/
  par : ParserUnit
  /-- The host's transactions still to come, the next one first (R62; log 5). -/
  input : List HostAction
  /-- What the host has been given so far, the latest last (R45; log 6). -/
  outputs : List Output
  deriving DecidableEq, Repr

/-- Where the model stops though the hardware would go on. The spec's own failures are next states (R222, R225). -/
inductive Fault where
  /-- A byte that holds no value is read: a byte nothing has written since reset, or `OBUF` at or after `OLEN`.
  Raised by `readByte` for a command, a host read and the completion of a frame. Safe: the hardware would return
  some bits, and R252 and U9 ask a model to stop (log 2, log 3). -/
  | noValue (space : Space) (index : Nat)
  /-- An access past the end of a buffer. Raised by the buffer operations. Safe: R61 and R180 say it never
  happens, and no state that the invariant admits raises it (log 13). -/
  | outOfRange (space : Space) (index : Nat)
  deriving DecidableEq, Repr

/-- Why a step has no meaning. -/
inductive Refusal where
  /-- The instruction has no meaning in this model. Raised by `exec`'s refused arms, of which there are none.
  Safe: nothing is claimed of such a step. -/
  | notModelled (mnemonic : String)
  deriving DecidableEq, Repr

/-- The command unit after reset (R47). The registers for which R47 says "unspecified" hold zero: DESIGN CHOICE,
unsafe (log 1). `IBUF` and `OBUF` hold no value (log 2). -/
def resetCommandUnit : CommandUnit where
  ver := 0
  type := 0
  msgId := 0
  totLen := 0
  fragIdx := 0
  fragCnt := 0
  payLen := 0
  nCnt := 0
  crc := 0
  fid := 0
  addr64 := 0
  addr16 := 0
  radius := 0
  txOpt := 0
  atCode := 0
  iLen := 0
  oLen := 0
  ok := false
  err := 0x00
  idxFile := []
  ibuf := []
  obuf := []
  nextFid := Config.fidReset
  cntCrcFail := 0

/-- The parser unit after reset (R47). `FBUF` holds no value. -/
def resetParserUnit : ParserUnit where
  pstate := .waitingForStart
  esc := false
  flen := 0
  idx := 0
  sum := 0
  fbuf := []
  cntFrameErr := 0

/-- The machine right after reset (R47, R250): no transaction pending and nothing given to the host (log 5, log 6). -/
def State.reset : State where
  cfg := Config.resetParams
  cmd := resetCommandUnit
  par := resetParserUnit
  input := []
  outputs := []

end Sys2Proof.Machine
end

