-- ==== Sys2Proof/Machine/Ops.lean ====
section
/-! DEFINITION. The named operations over the byte spaces, the index file, the output buffer, the event port and
the frame-id generator; and every way an operation of the block reports a failure (60_exceptions). -/

namespace Sys2Proof.Machine

/-- What every operation of the block answers. -/
abbrev Result := Host.Outcome State Fault Refusal

/-! ## Byte spaces -/

/-- The byte at index `a`, if it holds a value. -/
def Memory.read : Memory → Nat → Option Byte
  | [], _ => none
  | (b, v) :: t, a => if a = b then some v else Memory.read t a

/-- Write of one byte. It keeps the canonical form. -/
def Memory.write (a : Nat) (v : Byte) : Memory → Memory
  | [] => [(a, v)]
  | (b, w) :: t =>
    if a < b then (a, v) :: (b, w) :: t
    else if a = b then (a, v) :: t
    else (b, w) :: Memory.write a v t

/-- The space that holds exactly the bytes `s`, from index `a` on. -/
def Memory.ofBytes (a : Nat) : List Byte → Memory
  | [] => []
  | b :: t => (a, b) :: Memory.ofBytes (a + 1) t

/-- `MemRead(space, a, n)` (R12), or the fault of the first byte that holds no value (U9; log 2). -/
def readBytes (sp : Space) (m : Memory) : Nat → Nat → Except Fault (List Byte)
  | _, 0 => .ok []
  | a, n + 1 =>
    match Memory.read m a with
    | none => .error (.noValue sp a)
    | some b =>
      match readBytes sp m (a + 1) n with
      | .error f => .error f
      | .ok t => .ok (b :: t)

/-- The indices rise strictly from `lo` on and stay below `cap`. -/
def Memory.rising (lo cap : Nat) : Memory → Bool
  | [] => true
  | (a, _) :: t => decide (lo ≤ a ∧ a < cap) && Memory.rising (a + 1) cap t

/-- The canonical form of a space of `cap` bytes. -/
def Memory.wf (cap : Nat) (m : Memory) : Bool := Memory.rising 0 cap m

/-! ## The index file -/

/-- `IDX[k]` (R24). -/
def IndexFile.read : IndexFile → Nat → Half
  | [], _ => 0
  | (j, v) :: t, k => if k = j then v else IndexFile.read t k

/-- The entries but the one at `k`. -/
def IndexFile.erase (k : Nat) : IndexFile → IndexFile
  | [] => []
  | (j, v) :: t => if k = j then IndexFile.erase k t else (j, v) :: IndexFile.erase k t

/-- A non-zero entry put in its place. -/
def IndexFile.insert (k : Nat) (v : Half) : IndexFile → IndexFile
  | [] => [(k, v)]
  | (j, w) :: t =>
    if k < j then (k, v) :: (j, w) :: t
    else if k = j then (k, v) :: t
    else (j, w) :: IndexFile.insert k v t

/-- `IDX[k] <- v`. Writing zero removes the entry: the canonical form lists no zero. -/
def IndexFile.write (k : Nat) (v : Half) (f : IndexFile) : IndexFile :=
  if v = 0 then IndexFile.erase k f else IndexFile.insert k v f

/-- `IDX[k], IDX[k+1], ... <- vs` (R135). -/
def IndexFile.writeAll (k : Nat) : List Half → IndexFile → IndexFile
  | [], f => f
  | v :: vs, f => IndexFile.writeAll (k + 1) vs (IndexFile.write k v f)

/-- `[IDX[k], ..., IDX[k+n-1]]` (R126). -/
def IndexFile.take (f : IndexFile) (k : Nat) : Nat → List Half
  | 0 => []
  | n + 1 => IndexFile.read f k :: IndexFile.take f (k + 1) n

/-- The indices rise strictly from `lo` on and stay below `IDX_CAP`, and no value is zero. -/
def IndexFile.rising (lo : Nat) : IndexFile → Bool
  | [] => true
  | (j, v) :: t => decide (lo ≤ j ∧ j < Config.idxCap) && v != 0 && IndexFile.rising (j + 1) t

/-- The canonical form of the index file. -/
def IndexFile.wf (f : IndexFile) : Bool := IndexFile.rising 0 f

/-! ## The output buffer and the outputs -/

/-- `OBUF <= s` (R12): `s` from byte 0 on, `OLEN <- len(s)`. The bytes after it hold no value (U6; log 3). -/
def setOutput (s : List Byte) (st : State) : State :=
  { st with cmd := { st.cmd with obuf := Memory.ofBytes 0 s, oLen := BitVec.ofNat 16 s.length } }

/-- `OBUF <= s`, then `k`. The commands check that `s` fits (R61). -/
def storeOutput (s : List Byte) (st : State) (k : State → Result) : Result :=
  if s.length ≤ st.cfg.bufCap then k (setOutput s st) else .fault (.outOfRange .obuf st.cfg.bufCap)

/-- `emit ev` (R12, R45): the event is the output of the step. -/
def emit (e : Event) (st : State) : State := { st with outputs := st.outputs ++ [.event e] }

/-- `CRC <- v`. -/
def setCrc (v : Half) (st : State) : State := { st with cmd := { st.cmd with crc := v } }

/-! ## The frame-id generator -/

/-- `next(f)` (R159): 1 after 255, never 0. -/
def nextFrameId (f : Byte) : Byte := if f = 255 then 1 else f + 1

/-- `assign()` (R159): `FID` takes the generator's value and the generator advances. -/
def assignFrameId (st : State) : State :=
  { st with cmd := { st.cmd with fid := st.cmd.nextFid, nextFid := nextFrameId st.cmd.nextFid } }

/-! ## Success and failure (the block's exceptions: 60_exceptions section 3; there is no return from one, R229) -/

/-- `succeed` (R12, R223). -/
def succeed (st : State) : State := { st with cmd := { st.cmd with ok := true, err := 0x00 } }

/-- `raise E(code)` (R12, R222): nothing changes but `OK` and `ERR`. -/
def raise (e : CmdError) (st : State) : State := { st with cmd := { st.cmd with ok := false, err := e.code } }

/-- A counter's increment, modulo 2^`CNT_W` (R38, R39). -/
def countUp (w n : Nat) : Nat := (n + 1) % 2 ^ w

/-- The drop of a fragment message with a bad CRC (R132): `CNT_CRC_FAIL` counts, then `raise E(E_CRC)`. -/
def raiseCrcDrop (st : State) : State :=
  raise .crc { st with cmd := { st.cmd with cntCrcFail := countUp st.cfg.cntW st.cmd.cntCrcFail } }

/-- A parser error (R225): the parser is idle, `CNT_FRAME_ERR` counts, and the step emits `ERR(code)`. -/
def parserError (e : ParseError) (st : State) : State :=
  emit (.error e.code)
    { st with par := { st.par with pstate := .waitingForStart, cntFrameErr := countUp st.cfg.cntW st.par.cntFrameErr } }

/-- The illegal command (R224): a `CMD` value that is no command code. -/
def illegalCommand (st : State) : State := raise .illegalCmd st

end Sys2Proof.Machine
end

