-- ==== Sys2Proof/Machine/Operands.lean ====
section
/-! DEFINITION. The operands of the commands (10_state R23): bytes of `IBUF`, the index list, the frame id. -/

namespace Sys2Proof.Machine

/-- The number of valid input bytes, `ILEN`. -/
def inputLen (st : State) : Nat := st.cmd.iLen.toNat

/-- `IBUF[a..a+n)`, then `k`. A byte past `BUF_CAP` does not exist (log 13), a byte nothing has written holds no
value (log 2). -/
def withBytes (a n : Nat) (st : State) (k : List Byte → Result) : Result :=
  if a + n ≤ st.cfg.bufCap then
    match readBytes .ibuf st.cmd.ibuf a n with
    | .ok s => k s
    | .error f => .fault f
  else .fault (.outOfRange .ibuf st.cfg.bufCap)

/-- The input string `in = IBUF[0..ILEN)` (R12, R23), then `k`. -/
def withInput (st : State) (k : List Byte → Result) : Result := withBytes 0 (inputLen st) st k

/-- `[IDX[0], ..., IDX[NCNT-1]]` (R126). -/
def indexList (st : State) : List Half := IndexFile.take st.cmd.idxFile 0 st.cmd.nCnt.toNat

/-- The frame id an `_AUTO` builder writes (R160): the generator's value in place of a zero `FID`. -/
def autoFrameId (st : State) : Byte := if st.cmd.fid = 0 then st.cmd.nextFid else st.cmd.fid

/-- The generator's step of an `_AUTO` builder (R159, R160): only a zero `FID` advances it. -/
def takeFrameId (st : State) : State := if st.cmd.fid = 0 then assignFrameId st else st

/-- The Transmit Request body with frame id `f` from the operand registers (R157, R160). -/
def txBodyOf (f : Byte) (st : State) (d : List Byte) : List Byte :=
  txBody f st.cmd.addr64 st.cmd.addr16 st.cmd.radius st.cmd.txOpt d

/-- The AT Command body with frame id `f` from the operand registers (R161, R162). -/
def atBodyOf (f : Byte) (st : State) (p : List Byte) : List Byte := atBody f st.cmd.atCode p

end Sys2Proof.Machine
end

