-- ==== Sys2Proof/Machine/CrcUnit.lean ====
section
/-! DEFINITION. The CRC unit's commands (40_crc R105 to R107). -/

namespace Sys2Proof.Machine

/-- CRC.COMPUTE (R105): `CRC <- crc16(in)`. It cannot fail. -/
def execCrcCompute (st : State) : Result :=
  withInput st fun inp => .next (succeed (setCrc (crc16 inp) st))

/-- CRC.VERIFY (R106): `OK` is `verify(in)`; a false answer says in `ERR` why, and no counter counts it. -/
def execCrcVerify (st : State) : Result :=
  if inputLen st < 2 then .next (raise .short st)
  else withInput st fun inp => if crcVerify inp then .next (succeed st) else .next (raise .crc st)

/-- CRC.APPEND (R107): `OBUF <= in ++ be16(crc16(in))`, `CRC` the same value. -/
def execCrcAppend (st : State) : Result :=
  if st.cfg.bufCap < inputLen st + 2 then .next (raise .overflow st)
  else withInput st fun inp => .next (succeed (setCrc (crc16 inp) (setOutput (crcAppend inp) st)))

end Sys2Proof.Machine
end

