-- ==== Sys2Proof/Machine/EncoderUnit.lean ====
section
/-! DEFINITION. The API-frame encoder unit's commands (42_api_encoder R157, R160 to R162). -/

namespace Sys2Proof.Machine

/-- `w <- wire(B)`; a wire form longer than `BUF_CAP` fails before any state change, else `st'` gets it in `OBUF`.
`st'` is `st` after the frame id was taken (R157, R160). -/
def sendFrame (body : List Byte) (st st' : State) : Result :=
  if st.cfg.bufCap < (wire body).length then .next (raise .overflow st)
  else .next (succeed (setOutput (wire body) st'))

/-- API.BUILD_TX (R157): `FID` as it is, zero included; the generator is not read. -/
def execApiBuildTx (st : State) : Result :=
  withInput st fun inp => sendFrame (txBodyOf st.cmd.fid st inp) st st

/-- API.BUILD_TX_AUTO (R160): a zero `FID` is replaced by the next generated id. -/
def execApiBuildTxAuto (st : State) : Result :=
  withInput st fun inp => sendFrame (txBodyOf (autoFrameId st) st inp) st (takeFrameId st)

/-- API.BUILD_AT (R161). -/
def execApiBuildAt (st : State) : Result :=
  withInput st fun inp => sendFrame (atBodyOf st.cmd.fid st inp) st st

/-- API.BUILD_AT_AUTO (R162). -/
def execApiBuildAtAuto (st : State) : Result :=
  withInput st fun inp => sendFrame (atBodyOf (autoFrameId st) st inp) st (takeFrameId st)

end Sys2Proof.Machine
end

