-- ==== Sys2Proof/Machine/FragmentUnit.lean ====
section
/-! DEFINITION. The fragment codec unit's commands (41_fragment_codec R122 to R139), and the meaning of a fragment
message (the rows of FRAGMSG), which those commands select. -/

namespace Sys2Proof.Machine

/-! ## Serializers -/

/-- Stores a message that ends in its CRC, and that CRC in `CRC` (R124, R126, R128). -/
def storeMessage (m : List Byte) (st : State) : Result :=
  storeOutput m st fun st' => .next (succeed (setCrc (get16 m (m.length - 2)) st'))

/-- FRAG.ENC_HDR (R122): the 13-byte header from the operand registers. `CRC` is not written. -/
def execFragEncHdr (st : State) : Result :=
  storeOutput (hdr st.cmd.msgId st.cmd.totLen st.cmd.fragIdx st.cmd.fragCnt st.cmd.payLen) st
    fun st' => .next (succeed st')

/-- FRAG.ENC_DATA (R124): a whole DATA fragment whose payload is `in`; `PAYLEN` is neither read nor written. -/
def execFragEncData (st : State) : Result :=
  if 255 < inputLen st then .next (raise .range st)
  else withInput st fun inp =>
    storeMessage (dataMsg st.cmd.msgId st.cmd.totLen st.cmd.fragIdx st.cmd.fragCnt inp) st

/-- FRAG.BUILD_NACK (R126): the NACK that lists `IDX[0..NCNT)` in file order. -/
def execFragBuildNack (st : State) : Result := storeMessage (nackMsg st.cmd.msgId (indexList st)) st

/-- FRAG.BUILD_DONE (R128). -/
def execFragBuildDone (st : State) : Result := storeMessage (doneMsg st.cmd.msgId) st

/-! ## Decoder and validating parsers -/

/-- The registers a header goes to (R130, R133). -/
def deliverHeader (m : List Byte) (st : State) : State :=
  { st with cmd := { st.cmd with
      ver := byteAt m 0, type := byteAt m 1, msgId := get16 m 2, totLen := get32 m 4,
      fragIdx := get16 m 8, fragCnt := get16 m 10, payLen := byteAt m 12 } }

/-- The registers a NACK goes to (R135): `IDX` above the count keeps its values. -/
def deliverNack (m : List Byte) (st : State) : State :=
  { st with cmd := { st.cmd with
      ver := byteAt m 0, type := byteAt m 1, msgId := get16 m 2, nCnt := byteAt m 4,
      idxFile := IndexFile.writeAll 0 (getHalves m 5 (byteAt m 4).toNat) st.cmd.idxFile } }

/-- The registers a DONE goes to (R137). -/
def deliverDone (m : List Byte) (st : State) : State :=
  { st with cmd := { st.cmd with ver := byteAt m 0, type := byteAt m 1, msgId := get16 m 2 } }

/-- Tests (2) to (5) of R131 on a message with tag `tag` whose fields imply the length `len`, then `k`. -/
def validate (tag : Byte) (len : Nat) (m : List Byte) (st : State) (k : Result) : Result :=
  if crcVerify m = false then .next (raiseCrcDrop st)
  else if byteAt m 0 ≠ Config.protoVersion then .next (raise .version st)
  else if byteAt m 1 ≠ tag then .next (raise .type st)
  else if m.length ≠ len then .next (raise .length st)
  else k

/-- R133 after the length test, on the message `m`. -/
def receiveData (m : List Byte) (st : State) : Result :=
  validate Config.typeData (15 + (byteAt m 12).toNat) m st
    (storeOutput (slice m 13 (byteAt m 12).toNat) (deliverHeader m st)
      fun st' => .next (succeed (setCrc (get16 m (m.length - 2)) st')))

/-- R135 after the length test, on the message `m`. -/
def receiveNack (m : List Byte) (st : State) : Result :=
  validate Config.typeNack (7 + 2 * (byteAt m 4).toNat) m st
    (.next (succeed (setCrc (get16 m (m.length - 2)) (deliverNack m st))))

/-- R137 after the length test, on the message `m`. -/
def receiveDone (m : List Byte) (st : State) : Result :=
  validate Config.typeDone 6 m st
    (.next (succeed (setCrc (get16 m 4) (deliverDone m st))))

/-- Test (1) of R131, then the message is `in`. -/
def receiveInput (minLen : Nat) (receive : List Byte → State → Result) (st : State) : Result :=
  if inputLen st < minLen then .next (raise .short st) else withInput st fun inp => receive inp st

/-- FRAG.DEC_HDR (R130): it validates nothing but the length and looks at 13 bytes. -/
def execFragDecHdr (st : State) : Result :=
  if inputLen st < Config.headerSize then .next (raise .short st)
  else withBytes 0 Config.headerSize st fun h => .next (succeed (deliverHeader h st))

/-- FRAG.PARSE_DATA (R133). -/
def execFragParseData (st : State) : Result := receiveInput 15 receiveData st

/-- FRAG.PARSE_NACK (R135). -/
def execFragParseNack (st : State) : Result := receiveInput 7 receiveNack st

/-- FRAG.PARSE_DONE (R137). -/
def execFragParseDone (st : State) : Result := receiveInput 6 receiveDone st

/-- FRAG.PARSE (R139): the type tag selects the parser; an unknown tag is no CRC failure. -/
def execFragParse (st : State) : Result :=
  if inputLen st < 2 then .next (raise .short st)
  else withBytes 1 1 st fun t =>
    if byteAt t 0 = Config.typeData then receiveInput 15 receiveData st
    else if byteAt t 0 = Config.typeNack then receiveInput 7 receiveNack st
    else if byteAt t 0 = Config.typeDone then receiveInput 6 receiveDone st
    else .next (raise .type st)

/-! ## Fragment messages -/

/-- MSG.DATA (R84, R133): the parse of this message, its CRC field as it stands in it. -/
def execMsgData (msgId : Half) (totLen : BitVec 32) (fragIdx fragCnt : Half) (payload : List Byte) (crc : Half)
    (st : State) : Result :=
  receiveData (dataHead msgId totLen fragIdx fragCnt payload ++ be16 crc) st

/-- MSG.NACK (R85, R135). -/
def execMsgNack (msgId : Half) (indices : List Half) (crc : Half) (st : State) : Result :=
  receiveNack (nackHead msgId indices ++ be16 crc) st

/-- MSG.DONE (R86, R137). -/
def execMsgDone (msgId : Half) (crc : Half) (st : State) : Result :=
  receiveDone (doneHead msgId ++ be16 crc) st

end Sys2Proof.Machine
end

