-- ==== Sys2Proof/Syntax.lean ====
section
/-! DEFINITION. The syntax: one constructor of `Instr` for each of the 29 rows of the opcode table (30_encoding
R97), in the table's order, with the fields its layout gives it. -/

namespace Sys2Proof

/-- The four formats of the opcode table (R97). A byte string is read in one of them: the place it arrives at
(`CMD`, a completed frame, a fragment message, `RXDATA`) says which. -/
inductive Format where
  /-- The 8-bit value of a write to `CMD` (R72). -/
  | cmd
  /-- The body of an API frame, selected by its byte 0 (R76). -/
  | apiFrame
  /-- A fragment message, selected by its version and type tag (R90). -/
  | fragMsg
  /-- One raw byte written to `RXDATA` (R89). -/
  | rxByte
  deriving DecidableEq, Repr

/-- The operations the block selects by a bit pattern. A command has no operand field (R72): its operands are
registers and `IBUF`. A frame carries the fields of its body (R77 to R82), a message those of its layout with its
CRC field (R84 to R86), a data byte itself. -/
inductive Instr where
  /-- CRC.COMPUTE, 0xC1 (R105). -/
  | crcCompute
  /-- CRC.VERIFY, 0xC2 (R106). -/
  | crcVerify
  /-- CRC.APPEND, 0xC3 (R107). -/
  | crcAppend
  /-- FRAG.ENC_HDR, 0xF1 (R122). -/
  | fragEncHdr
  /-- FRAG.ENC_DATA, 0xF2 (R124). -/
  | fragEncData
  /-- FRAG.BUILD_NACK, 0xF3 (R126). -/
  | fragBuildNack
  /-- FRAG.BUILD_DONE, 0xF4 (R128). -/
  | fragBuildDone
  /-- FRAG.DEC_HDR, 0xF5 (R130). -/
  | fragDecHdr
  /-- FRAG.PARSE_DATA, 0xF6 (R133). -/
  | fragParseData
  /-- FRAG.PARSE_NACK, 0xF7 (R135). -/
  | fragParseNack
  /-- FRAG.PARSE_DONE, 0xF8 (R137). -/
  | fragParseDone
  /-- FRAG.PARSE, 0xF9 (R139). -/
  | fragParse
  /-- API.BUILD_TX, 0xA1 (R157). -/
  | apiBuildTx
  /-- API.BUILD_TX_AUTO, 0xA2 (R160). -/
  | apiBuildTxAuto
  /-- API.BUILD_AT, 0xA3 (R161). -/
  | apiBuildAt
  /-- API.BUILD_AT_AUTO, 0xA4 (R162). -/
  | apiBuildAtAuto
  /-- SYS.RESET, 0xE0 (R211). -/
  | sysReset
  /-- FRAME.TX_REQUEST, type 0x10 (R77, R190). -/
  | frameTxRequest (frameId : Byte) (dst64 : BitVec 64) (dst16 : Half) (radius options : Byte) (rfData : List Byte)
  /-- FRAME.AT_COMMAND, type 0x08 (R78, R194). -/
  | frameAtCommand (frameId : Byte) (atCode : Half) (param : List Byte)
  /-- FRAME.RX_PACKET, type 0x90 (R79, R191). -/
  | frameRxPacket (src64 : BitVec 64) (src16 : Half) (options : Byte) (rfData : List Byte)
  /-- FRAME.EXPLICIT_RX, type 0x91 (R80, R192). -/
  | frameExplicitRx (src64 : BitVec 64) (src16 : Half) (srcEp dstEp : Byte) (cluster profile : Half) (options : Byte)
      (rfData : List Byte)
  /-- FRAME.TX_STATUS, type 0x8B (R81, R193). -/
  | frameTxStatus (frameId : Byte) (dst16 : Half) (retries deliveryStatus discoveryStatus : Byte)
  /-- FRAME.AT_RESPONSE, type 0x88 (R82, R195). -/
  | frameAtResponse (frameId : Byte) (atCode : Half) (status : Byte) (data : List Byte)
  /-- MSG.DATA, version 0x01 and tag 0x01 (R84, R133). -/
  | msgData (msgId : Half) (totLen : BitVec 32) (fragIdx fragCnt : Half) (payload : List Byte) (crc : Half)
  /-- MSG.NACK, version 0x01 and tag 0x02 (R85, R135). -/
  | msgNack (msgId : Half) (indices : List Half) (crc : Half)
  /-- MSG.DONE, version 0x01 and tag 0x03 (R86, R137). -/
  | msgDone (msgId : Half) (crc : Half)
  /-- RX.START, the raw byte 0x7E (R173). -/
  | rxStart
  /-- RX.ESCAPE, the raw byte 0x7D (R175). -/
  | rxEscape
  /-- RX.BYTE, any other raw byte (R171, R89 (5)). -/
  | rxByte (b : Byte)
  deriving DecidableEq, Repr

/-- The format of an instruction (R97). -/
def Instr.format : Instr → Format
  | .crcCompute | .crcVerify | .crcAppend => .cmd
  | .fragEncHdr | .fragEncData | .fragBuildNack | .fragBuildDone => .cmd
  | .fragDecHdr | .fragParseData | .fragParseNack | .fragParseDone | .fragParse => .cmd
  | .apiBuildTx | .apiBuildTxAuto | .apiBuildAt | .apiBuildAtAuto | .sysReset => .cmd
  | .frameTxRequest _ _ _ _ _ _ | .frameAtCommand _ _ _ | .frameRxPacket _ _ _ _ => .apiFrame
  | .frameExplicitRx _ _ _ _ _ _ _ _ | .frameTxStatus _ _ _ _ _ | .frameAtResponse _ _ _ _ => .apiFrame
  | .msgData _ _ _ _ _ _ | .msgNack _ _ _ | .msgDone _ _ => .fragMsg
  | .rxStart | .rxEscape | .rxByte _ => .rxByte

/-- What the body of a checked frame is (R186): one of the six records, a known type whose body is too short
(R189), or a frame of another type (R196). -/
inductive FrameBody where
  | txRequest (frameId : Byte) (dst64 : BitVec 64) (dst16 : Half) (radius options : Byte) (rfData : List Byte)
  | atCommand (frameId : Byte) (atCode : Half) (param : List Byte)
  | rxPacket (src64 : BitVec 64) (src16 : Half) (options : Byte) (rfData : List Byte)
  | explicitRx (src64 : BitVec 64) (src16 : Half) (srcEp dstEp : Byte) (cluster profile : Half) (options : Byte)
      (rfData : List Byte)
  | txStatus (frameId : Byte) (dst16 : Half) (retries deliveryStatus discoveryStatus : Byte)
  | atResponse (frameId : Byte) (atCode : Half) (status : Byte) (data : List Byte)
  | tooShort
  | unknown (type : Byte) (body : List Byte)
  deriving DecidableEq, Repr

end Sys2Proof
end

