-- ==== Sys2Proof/WellFormed.lean ====
section
/-! DEFINITION. Which terms of `Instr` an encoding of the spec can spell: the checks on operands that the type
does not make. -/

namespace Sys2Proof

/-- RX.BYTE is the class of the raw bytes that are neither the delimiter nor the escape prefix (R89). -/
def dataByteFits (b : Byte) : Bool := b != Config.startDelim && b != Config.escByte

/-- The body of a frame has at most `MAX_FRAME_LEN` bytes (R178); `fixed` is the size of its fixed fields. -/
def bodyFits (fixed : Nat) (tail : List Byte) : Bool := decide (fixed + tail.length ≤ Config.maxFrameLen)

/-- The payload length of a DATA fragment fits its one-byte field (R83). -/
def payloadFits (payload : List Byte) : Bool := decide (payload.length ≤ 255)

/-- The count of a NACK fits its one-byte field (R85). -/
def indicesFit (indices : List Half) : Bool := decide (indices.length ≤ Config.idxCap)

/-- The instruction can be spelled by an encoding of the spec. -/
def Instr.wellFormed : Instr → Bool
  | .crcCompute | .crcVerify | .crcAppend => true
  | .fragEncHdr | .fragEncData | .fragBuildNack | .fragBuildDone => true
  | .fragDecHdr | .fragParseData | .fragParseNack | .fragParseDone | .fragParse => true
  | .apiBuildTx | .apiBuildTxAuto | .apiBuildAt | .apiBuildAtAuto | .sysReset => true
  | .frameTxRequest _ _ _ _ _ rfData => bodyFits 14 rfData
  | .frameAtCommand _ _ param => bodyFits 4 param
  | .frameRxPacket _ _ _ rfData => bodyFits 12 rfData
  | .frameExplicitRx _ _ _ _ _ _ _ rfData => bodyFits 18 rfData
  | .frameTxStatus _ _ _ _ _ => true
  | .frameAtResponse _ _ _ data => bodyFits 5 data
  | .msgData _ _ _ _ payload _ => payloadFits payload
  | .msgNack _ indices _ => indicesFit indices
  | .msgDone _ _ => true
  | .rxStart | .rxEscape => true
  | .rxByte b => dataByteFits b

end Sys2Proof
end

