-- ==== Sys2Proof/Decode.lean ====
section
/-! DEFINITION. The decoder, total on any bytes and rejecting by name, and after it the encoder. Each format of
the opcode table has a decoder of its own (30_encoding R97): the place a byte string arrives at says which one
reads it. -/

namespace Sys2Proof

open Machine

/-- Why a byte string is no instruction of its format. -/
inductive DecodeError where
  /-- The bytes that select the row are not there. -/
  | noSelector
  /-- A `CMD` value that is no command code (R91). -/
  | illegalCommand
  /-- More bytes than the format has. -/
  | extraBytes
  /-- A frame type outside the six (R92). -/
  | unknownFrameType
  /-- A body shorter than the fixed fields of its type (R189). -/
  | shortBody
  /-- A version byte that is not `PROTO_VERSION` (R93). -/
  | unknownVersion
  /-- A type tag other than 0x01, 0x02, 0x03 (R93). -/
  | unknownTag
  /-- A message shorter than the fixed fields of its kind (R84 to R86). -/
  | shortMessage
  /-- A message whose length is not the one its fields imply (R88). -/
  | badLength
  deriving DecidableEq, Repr

/-- The command codes (R72). All eight bits are significant. -/
def decodeCmd (c : Byte) : Except DecodeError Instr :=
  if c = 0xC1 then .ok .crcCompute
  else if c = 0xC2 then .ok .crcVerify
  else if c = 0xC3 then .ok .crcAppend
  else if c = 0xF1 then .ok .fragEncHdr
  else if c = 0xF2 then .ok .fragEncData
  else if c = 0xF3 then .ok .fragBuildNack
  else if c = 0xF4 then .ok .fragBuildDone
  else if c = 0xF5 then .ok .fragDecHdr
  else if c = 0xF6 then .ok .fragParseData
  else if c = 0xF7 then .ok .fragParseNack
  else if c = 0xF8 then .ok .fragParseDone
  else if c = 0xF9 then .ok .fragParse
  else if c = 0xA1 then .ok .apiBuildTx
  else if c = 0xA2 then .ok .apiBuildTxAuto
  else if c = 0xA3 then .ok .apiBuildAt
  else if c = 0xA4 then .ok .apiBuildAtAuto
  else if c = 0xE0 then .ok .sysReset
  else .error .illegalCommand

/-- `minlen` (R76, R186): the size of the fixed fields of a frame type, type byte included. -/
def minBodyLen (t : Byte) : Option Nat :=
  if t = Config.ftTxRequest then some 14
  else if t = Config.ftRxPacket then some 12
  else if t = Config.ftExplicitRx then some 18
  else if t = Config.ftTxStatus then some 7
  else if t = Config.ftAtCommand then some 4
  else if t = Config.ftAtResponse then some 5
  else none

/-- The fields of a body whose type is known and whose fixed fields are all there (R190 to R195). -/
def bodyFields (f : List Byte) : FrameBody :=
  if byteAt f 0 = Config.ftTxRequest then
    .txRequest (byteAt f 1) (get64 f 2) (get16 f 10) (byteAt f 12) (byteAt f 13) (f.drop 14)
  else if byteAt f 0 = Config.ftRxPacket then
    .rxPacket (get64 f 1) (get16 f 9) (byteAt f 11) (f.drop 12)
  else if byteAt f 0 = Config.ftExplicitRx then
    .explicitRx (get64 f 1) (get16 f 9) (byteAt f 11) (byteAt f 12) (get16 f 13) (get16 f 15) (byteAt f 17) (f.drop 18)
  else if byteAt f 0 = Config.ftTxStatus then
    .txStatus (byteAt f 1) (get16 f 2) (byteAt f 4) (byteAt f 5) (byteAt f 6)
  else if byteAt f 0 = Config.ftAtCommand then
    .atCommand (byteAt f 1) (get16 f 2) (f.drop 4)
  else
    .atResponse (byteAt f 1) (get16 f 2) (byteAt f 4) (f.drop 5)

/-- What a body is (R186): the type is looked at first, then the length. -/
def parseBody (f : List Byte) : FrameBody :=
  match minBodyLen (byteAt f 0) with
  | none => .unknown (byteAt f 0) f
  | some n => if f.length < n then .tooShort else bodyFields f

/-- The format APIFRAME. -/
def decodeFrame (f : List Byte) : Except DecodeError Instr :=
  if f.isEmpty then .error .noSelector
  else match parseBody f with
    | .txRequest fid d64 d16 r o d => .ok (.frameTxRequest fid d64 d16 r o d)
    | .atCommand fid c p => .ok (.frameAtCommand fid c p)
    | .rxPacket s64 s16 o d => .ok (.frameRxPacket s64 s16 o d)
    | .explicitRx s64 s16 se de cl pr o d => .ok (.frameExplicitRx s64 s16 se de cl pr o d)
    | .txStatus fid d16 r ds dd => .ok (.frameTxStatus fid d16 r ds dd)
    | .atResponse fid c st d => .ok (.frameAtResponse fid c st d)
    | .tooShort => .error .shortBody
    | .unknown _ _ => .error .unknownFrameType

/-- The format FRAGMSG: version and tag select (R97), the layout gives the fields. Whether the CRC field is the
CRC of the message is no matter of decoding: the message's meaning tests it. -/
def decodeMsg (m : List Byte) : Except DecodeError Instr :=
  if m.length < 2 then .error .noSelector
  else if byteAt m 0 ≠ Config.protoVersion then .error .unknownVersion
  else if byteAt m 1 = Config.typeData then
    if m.length < 15 then .error .shortMessage
    else if m.length ≠ 15 + (byteAt m 12).toNat then .error .badLength
    else .ok (.msgData (get16 m 2) (get32 m 4) (get16 m 8) (get16 m 10) (slice m 13 (byteAt m 12).toNat)
      (get16 m (m.length - 2)))
  else if byteAt m 1 = Config.typeNack then
    if m.length < 7 then .error .shortMessage
    else if m.length ≠ 7 + 2 * (byteAt m 4).toNat then .error .badLength
    else .ok (.msgNack (get16 m 2) (getHalves m 5 (byteAt m 4).toNat) (get16 m (m.length - 2)))
  else if byteAt m 1 = Config.typeDone then
    if m.length < 6 then .error .shortMessage
    else if m.length ≠ 6 then .error .badLength
    else .ok (.msgDone (get16 m 2) (get16 m 4))
  else .error .unknownTag

/-- The format RXBYTE (R89, R97): the default class is tried last. -/
def decodeRx (b : Byte) : Instr :=
  if b = Config.startDelim then .rxStart
  else if b = Config.escByte then .rxEscape
  else .rxByte b

/-- The decoder of each format over a whole byte string. -/
def decode : Format → List Byte → Except DecodeError Instr
  | .cmd, [c] => decodeCmd c
  | .cmd, [] => .error .noSelector
  | .cmd, _ :: _ :: _ => .error .extraBytes
  | .apiFrame, f => decodeFrame f
  | .fragMsg, m => decodeMsg m
  | .rxByte, [b] => .ok (decodeRx b)
  | .rxByte, [] => .error .noSelector
  | .rxByte, _ :: _ :: _ => .error .extraBytes

/-! ## The encoder -/

/-- The bytes that spell an instruction in its format, from the code table (R72), the body layouts (R77 to R82),
the message layouts (R84 to R86) and the byte classes (R89). -/
def encode : Instr → List Byte
  | .crcCompute => [0xC1]
  | .crcVerify => [0xC2]
  | .crcAppend => [0xC3]
  | .fragEncHdr => [0xF1]
  | .fragEncData => [0xF2]
  | .fragBuildNack => [0xF3]
  | .fragBuildDone => [0xF4]
  | .fragDecHdr => [0xF5]
  | .fragParseData => [0xF6]
  | .fragParseNack => [0xF7]
  | .fragParseDone => [0xF8]
  | .fragParse => [0xF9]
  | .apiBuildTx => [0xA1]
  | .apiBuildTxAuto => [0xA2]
  | .apiBuildAt => [0xA3]
  | .apiBuildAtAuto => [0xA4]
  | .sysReset => [0xE0]
  | .frameTxRequest fid d64 d16 r o d => txBody fid d64 d16 r o d
  | .frameAtCommand fid c p => atBody fid c p
  | .frameRxPacket s64 s16 o d => rxPacketBody s64 s16 o d
  | .frameExplicitRx s64 s16 se de cl pr o d => explicitRxBody s64 s16 se de cl pr o d
  | .frameTxStatus fid d16 r ds dd => txStatusBody fid d16 r ds dd
  | .frameAtResponse fid c st d => atResponseBody fid c st d
  | .msgData m t i c p crc => dataHead m t i c p ++ be16 crc
  | .msgNack m is crc => nackHead m is ++ be16 crc
  | .msgDone m crc => doneHead m ++ be16 crc
  | .rxStart => [Config.startDelim]
  | .rxEscape => [Config.escByte]
  | .rxByte b => [b]

/-! ## The opcode table's words -/

/-- The `n` bytes of `w`, the least significant first: byte `k` is bits `8k+7..8k`. -/
def bytesOfWord : Nat → Nat → List Byte
  | 0, _ => []
  | n + 1, w => BitVec.ofNat 8 w :: bytesOfWord n (w / 256)

/-- `s` followed by zeros up to `n` bytes. -/
def padTo (n : Nat) (s : List Byte) : List Byte := s ++ List.replicate (n - s.length) 0

/-- The length of the shortest message of a kind (R84 to R86). -/
def minMsgLen (tag : Byte) : Nat :=
  if tag = Config.typeData then 15 else if tag = Config.typeNack then 7 else 6

/-- Whether a word is a row of the format FRAGMSG: 16 bits, `byte0 · 256 + byte1` = 0x0101, 0x0102 or 0x0103 (R97). -/
def isMsgWord (nbits w : Nat) : Bool := nbits == 16 && (w == 0x0101 || w == 0x0102 || w == 0x0103)

/-- The format of the table that a word belongs to, the formats tried in the table's order and the default class
of RXBYTE last (R97; log 9). -/
def tableFormat (nbits w : Nat) : Format :=
  let t : Byte := BitVec.ofNat 8 w
  if isMsgWord nbits w then .fragMsg
  else match decodeCmd t with
    | .ok _ => .cmd
    | .error _ => if (minBodyLen t).isSome then .apiFrame else .rxByte

/-- The bytes of the instruction whose first bits are `w`, every further bit zero. A row of FRAGMSG is one 16-bit
word of a big-endian format (R51, R97), so its high byte comes first. -/
def tableBytes (nbits w : Nat) : List Byte :=
  let t : Byte := BitVec.ofNat 8 w
  match tableFormat nbits w with
  | .fragMsg => padTo (minMsgLen t) [BitVec.ofNat 8 (w / 256), t]
  | .cmd => [t]
  | .apiFrame => padTo ((minBodyLen t).getD 1) (bytesOfWord (max 1 (nbits / 8)) w)
  | .rxByte => [t]

/-- The instruction the decoder reads from an instruction whose bits are `w`, numbered as the opcode table numbers
them (log 9). -/
def decodeTableWord (nbits w : Nat) : Option Instr := (decode (tableFormat nbits w) (tableBytes nbits w)).toOption

end Sys2Proof
end

