-- ==== Sys2Proof/Machine/Flags.lean ====
section
/-! DEFINITION. The flags and status views: the escape latch and de-escaping (R32, R175), the running checksum and
its test (R31, R183), the length range test (R178), and the status byte (R36). -/

namespace Sys2Proof.Machine

/-- The encoding of `pstate` in three bits (R28). -/
def PState.code : PState → BitVec 3
  | .waitingForStart => 0
  | .lengthMsb => 1
  | .lengthLsb => 2
  | .frameData => 3
  | .checksum => 4

/-- `STATUS` (R36): `esc` in bit 3, `pstate` in bits 2:0, bits 7:4 zero. -/
def statusByte (p : ParserUnit) : Byte :=
  (0 : BitVec 4) ++ BitVec.ofBool p.esc ++ PState.code p.pstate

/-- The byte a state consumes (R175 (b), (c)): with the latch set, the raw byte xor 0x20. -/
def deEscape (esc : Bool) (b : Byte) : Byte := if esc then b ^^^ Config.escXor else b

/-- The length range check (R178): `1 <= flen <= 256`. -/
def lengthOk (flen : Half) : Bool := decide (1 ≤ flen.toNat ∧ flen.toNat ≤ Config.maxFrameLen)

/-- The acceptance test (R183): the total is 0xFF. -/
def checksumOk (sum : Byte) : Bool := sum == 0xFF

end Sys2Proof.Machine
end

