-- ==== Sys2Proof/Machine/ParserUnit.lean ====
section
/-! DEFINITION. The stream parser unit (43_stream_parser): the step on a received byte (R171) by its three byte
classes, and the dispatch of a checked frame (R186), whose records are the rows of APIFRAME. -/

namespace Sys2Proof.Machine

/-! ## Frames -/

/-- FRAME.TX_REQUEST (R190): the record is the event. -/
def execFrameTxRequest (frameId : Byte) (dst64 : BitVec 64) (dst16 : Half) (radius options : Byte)
    (rfData : List Byte) (st : State) : Result :=
  .next (emit (.txRequest frameId dst64 dst16 radius options rfData) st)

/-- FRAME.AT_COMMAND (R194). -/
def execFrameAtCommand (frameId : Byte) (atCode : Half) (param : List Byte) (st : State) : Result :=
  .next (emit (.atCommand frameId atCode param) st)

/-- FRAME.RX_PACKET (R191): `explicit = 0`. -/
def execFrameRxPacket (src64 : BitVec 64) (src16 : Half) (options : Byte) (rfData : List Byte) (st : State) : Result :=
  .next (emit (.rxPacket src64 src16 options rfData none) st)

/-- FRAME.EXPLICIT_RX (R192, R188): the same kind of event with `explicit = 1` and the four extra fields. -/
def execFrameExplicitRx (src64 : BitVec 64) (src16 : Half) (srcEp dstEp : Byte) (cluster profile : Half)
    (options : Byte) (rfData : List Byte) (st : State) : Result :=
  .next (emit (.rxPacket src64 src16 options rfData
    (some { srcEp := srcEp, dstEp := dstEp, cluster := cluster, profile := profile })) st)

/-- FRAME.TX_STATUS (R193). -/
def execFrameTxStatus (frameId : Byte) (dst16 : Half) (retries deliveryStatus discoveryStatus : Byte)
    (st : State) : Result :=
  .next (emit (.txStatus frameId dst16 retries deliveryStatus discoveryStatus) st)

/-- FRAME.AT_RESPONSE (R195). -/
def execFrameAtResponse (frameId : Byte) (atCode : Half) (status : Byte) (data : List Byte) (st : State) : Result :=
  .next (emit (.atResponse frameId atCode status data) st)

/-- `dispatch(F)` (R186): a known type runs its frame, a short body of a known type is an error (R189), any other
type is reported with its whole body and counts nothing (R196). -/
def dispatchFrame (f : List Byte) (st : State) : Result :=
  match parseBody f with
  | .txRequest fid d64 d16 r o d => execFrameTxRequest fid d64 d16 r o d st
  | .atCommand fid c p => execFrameAtCommand fid c p st
  | .rxPacket s64 s16 o d => execFrameRxPacket s64 s16 o d st
  | .explicitRx s64 s16 se de cl pr o d => execFrameExplicitRx s64 s16 se de cl pr o d st
  | .txStatus fid d16 r ds dd => execFrameTxStatus fid d16 r ds dd st
  | .atResponse fid c s d => execFrameAtResponse fid c s d st
  | .tooShort => .next (parserError .shortFrame st)
  | .unknown t body => .next (emit (.unknownFrame t body) st)

/-! ## The states' use of a de-escaped byte (R171, part 4) -/

/-- `LengthMsb` (R176). -/
def consumeLengthMsb (d : Byte) (st : State) : Result :=
  .next { st with par := { st.par with flen := d.setWidth 16 <<< 8, pstate := .lengthLsb } }

/-- `LengthLsb` (R177 to R179): the range check is made on the assembled length. -/
def consumeLengthLsb (d : Byte) (st : State) : Result :=
  let flen := st.par.flen + d.setWidth 16
  if lengthOk flen then .next { st with par := { st.par with flen := flen, idx := 0, pstate := .frameData } }
  else .next (parserError .length { st with par := { st.par with flen := flen } })

/-- `FrameData` (R180, R181): the byte is stored, summed and counted. A store past `FBUF` cannot happen (log 13). -/
def consumeFrameData (d : Byte) (st : State) : Result :=
  if st.par.idx.toNat < Config.fbufCap then
    .next { st with par := { st.par with
      fbuf := Memory.write st.par.idx.toNat d st.par.fbuf
      sum := st.par.sum + d
      idx := st.par.idx + 1
      pstate := if (st.par.idx + 1).toNat = st.par.flen.toNat then .checksum else .frameData } }
  else .fault (.outOfRange .fbuf Config.fbufCap)

/-- `Checksum` (R182 to R184): the parser is idle whatever comes out (R185); a valid frame is dispatched. -/
def consumeChecksum (d : Byte) (st : State) : Result :=
  let st' := { st with par := { st.par with sum := st.par.sum + d, pstate := .waitingForStart } }
  if checksumOk st'.par.sum then
    match readBytes .fbuf st.par.fbuf 0 st.par.flen.toNat with
    | .ok f => dispatchFrame f st'
    | .error e => .fault e
  else .next (parserError .checksum st')

/-- The current state consumes the de-escaped byte `d`. In `WaitingForStart` a byte is discarded (R174). -/
def consume (d : Byte) (st : State) : Result :=
  match st.par.pstate with
  | .waitingForStart => .next st
  | .lengthMsb => consumeLengthMsb d st
  | .lengthLsb => consumeLengthLsb d st
  | .frameData => consumeFrameData d st
  | .checksum => consumeChecksum d st

/-- `esc <- v`. -/
def setEsc (v : Bool) (st : State) : State := { st with par := { st.par with esc := v } }

/-! ## The three byte classes -/

/-- RX.START (R173): a raw 0x7E opens a frame in every state, whatever the latch holds; a frame in progress is
abandoned silently (R200). -/
def execRxStart (st : State) : Result :=
  .next { st with par := { st.par with pstate := .lengthMsb, esc := false, sum := 0, flen := 0, idx := 0 } }

/-- RX.ESCAPE (R174, R175 (a), (d)): discarded when idle; else it sets a clear latch; with the latch set,
`ESC_REPEAT` says whether it is the data byte 0x5D or once more a prefix. -/
def execRxEscape (st : State) : Result :=
  if st.par.pstate = .waitingForStart then .next st
  else if st.par.esc = false then .next (setEsc true st)
  else match st.cfg.escRepeat with
    | .latch => .next st
    | .data => consume (deEscape true Config.escByte) (setEsc false st)

/-- RX.BYTE (R174, R175 (b), (c), R171 part 4): discarded when idle; else de-escaped and consumed. -/
def execRxByte (b : Byte) (st : State) : Result :=
  if st.par.pstate = .waitingForStart then .next st
  else consume (deEscape st.par.esc b) (setEsc false st)

end Sys2Proof.Machine
end

