-- ==== Sys2Proof/Machine/SystemUnit.lean ====
section
/-! DEFINITION. The system group's command (44_system R211) and the hardware reset (R212). -/

namespace Sys2Proof.Machine

/-- Reset of the block (R47, R212): every piece of its state takes its reset value. The parameters, the host's
transactions and what the host already has are not the block's state (log 17). -/
def resetBlock (st : State) : State := { st with cmd := resetCommandUnit, par := resetParserUnit }

/-- SYS.RESET (R211): it leaves `OK = 0` and `ERR = 0x00`, the reset values. -/
def execSysReset (st : State) : Result := .next (resetBlock st)

end Sys2Proof.Machine
end

