-- ==== Sys2Proof/Machine/Dispatch.lean ====
section
/-! DEFINITION. The one place where an instruction gets its meaning. -/

namespace Sys2Proof.Machine

open Host

def exec (i : Instr) (s : State) : Host.Outcome State Fault Refusal :=
  match i with
  | .crcCompute => Sys2Proof.Machine.execCrcCompute s
  | .crcVerify => Sys2Proof.Machine.execCrcVerify s
  | .crcAppend => Sys2Proof.Machine.execCrcAppend s
  | .fragEncHdr => Sys2Proof.Machine.execFragEncHdr s
  | .fragEncData => Sys2Proof.Machine.execFragEncData s
  | .fragBuildNack => Sys2Proof.Machine.execFragBuildNack s
  | .fragBuildDone => Sys2Proof.Machine.execFragBuildDone s
  | .fragDecHdr => Sys2Proof.Machine.execFragDecHdr s
  | .fragParseData => Sys2Proof.Machine.execFragParseData s
  | .fragParseNack => Sys2Proof.Machine.execFragParseNack s
  | .fragParseDone => Sys2Proof.Machine.execFragParseDone s
  | .fragParse => Sys2Proof.Machine.execFragParse s
  | .apiBuildTx => Sys2Proof.Machine.execApiBuildTx s
  | .apiBuildTxAuto => Sys2Proof.Machine.execApiBuildTxAuto s
  | .apiBuildAt => Sys2Proof.Machine.execApiBuildAt s
  | .apiBuildAtAuto => Sys2Proof.Machine.execApiBuildAtAuto s
  | .sysReset => Sys2Proof.Machine.execSysReset s
  | .frameTxRequest fid d64 d16 r o d => Sys2Proof.Machine.execFrameTxRequest fid d64 d16 r o d s
  | .frameAtCommand fid c p => Sys2Proof.Machine.execFrameAtCommand fid c p s
  | .frameRxPacket s64 s16 o d => Sys2Proof.Machine.execFrameRxPacket s64 s16 o d s
  | .frameExplicitRx s64 s16 se de cl pr o d => Sys2Proof.Machine.execFrameExplicitRx s64 s16 se de cl pr o d s
  | .frameTxStatus fid d16 r ds dd => Sys2Proof.Machine.execFrameTxStatus fid d16 r ds dd s
  | .frameAtResponse fid c st d => Sys2Proof.Machine.execFrameAtResponse fid c st d s
  | .msgData m t ix cnt p crc => Sys2Proof.Machine.execMsgData m t ix cnt p crc s
  | .msgNack m is crc => Sys2Proof.Machine.execMsgNack m is crc s
  | .msgDone m crc => Sys2Proof.Machine.execMsgDone m crc s
  | .rxStart => Sys2Proof.Machine.execRxStart s
  | .rxEscape => Sys2Proof.Machine.execRxEscape s
  | .rxByte b => Sys2Proof.Machine.execRxByte b s

end Sys2Proof.Machine
end

