-- ==== Sys2Proof/Machine/HostPort.lean ====
section
/-! DEFINITION. The host's port: the address map (20_memory R58), register and buffer accesses (44_system R213 to
R215), the writes to `CMD` and `RXDATA` that start an operation (R41, R42), and how the instruction of a step is
fetched from the host's next transaction. -/

namespace Sys2Proof.Machine

/-- What an address of the map names (R58). -/
inductive Place where
  | cmd | rxData | ok | err | status | nextFid | cntCrcFail | cntFrameErr
  | ver | type | msgId | totLen | fragIdx | fragCnt | payLen | nCnt | crc
  | addr64 | addr16 | radius | txOpt | fid | atCode | iLen | oLen
  | idx (k : Nat)
  | ibuf (i : Nat)
  | obuf (i : Nat)
  deriving DecidableEq, Repr

/-- The registers below 0x200 (R58). -/
def registerAt (a : Nat) : Option Place :=
  if a = 0x00000 then some .cmd
  else if a = 0x00001 then some .rxData
  else if a = 0x00002 then some .ok
  else if a = 0x00003 then some .err
  else if a = 0x00004 then some .status
  else if a = 0x00005 then some .nextFid
  else if a = 0x00008 then some .cntCrcFail
  else if a = 0x00010 then some .cntFrameErr
  else if a = 0x00020 then some .ver
  else if a = 0x00021 then some .type
  else if a = 0x00022 then some .msgId
  else if a = 0x00024 then some .totLen
  else if a = 0x00028 then some .fragIdx
  else if a = 0x0002A then some .fragCnt
  else if a = 0x0002C then some .payLen
  else if a = 0x0002D then some .nCnt
  else if a = 0x0002E then some .crc
  else if a = 0x00030 then some .addr64
  else if a = 0x00038 then some .addr16
  else if a = 0x0003A then some .radius
  else if a = 0x0003B then some .txOpt
  else if a = 0x0003C then some .fid
  else if a = 0x0003E then some .atCode
  else if a = 0x00040 then some .iLen
  else if a = 0x00042 then some .oLen
  else none

/-- The address map (R58). Every other address is unmapped (R59). -/
def placeAt (cfg : Params) (addr : HostAddr) : Option Place :=
  let a := addr.toNat
  if a < 0x200 then registerAt a
  else if a < 0x200 + 2 * Config.idxCap then
    if a % 2 = 0 then some (.idx ((a - 0x200) / 2)) else none
  else if 0x10000 ≤ a ∧ a < 0x10000 + cfg.bufCap then some (.ibuf (a - 0x10000))
  else if 0x20000 ≤ a ∧ a < 0x20000 + cfg.bufCap then some (.obuf (a - 0x20000))
  else none

/-- A byte of a buffer as the host reads it; a byte that holds no value faults (U9; log 2, log 3). -/
def readCell (sp : Space) (m : Memory) (i : Nat) : Except Fault (BitVec 64) :=
  match Memory.read m i with
  | some b => .ok (b.setWidth 64)
  | none => .error (.noValue sp i)

/-- The value a read returns, zero-extended (R213, R215). A write-only register reads as zero (R22; log 11). -/
def readPlace (p : Place) (st : State) : Except Fault (BitVec 64) :=
  match p with
  | .cmd => .ok 0
  | .rxData => .ok 0
  | .ok => .ok ((BitVec.ofBool st.cmd.ok).setWidth 64)
  | .err => .ok (st.cmd.err.setWidth 64)
  | .status => .ok ((statusByte st.par).setWidth 64)
  | .nextFid => .ok (st.cmd.nextFid.setWidth 64)
  | .cntCrcFail => .ok (BitVec.ofNat 64 st.cmd.cntCrcFail)
  | .cntFrameErr => .ok (BitVec.ofNat 64 st.par.cntFrameErr)
  | .ver => .ok (st.cmd.ver.setWidth 64)
  | .type => .ok (st.cmd.type.setWidth 64)
  | .msgId => .ok (st.cmd.msgId.setWidth 64)
  | .totLen => .ok (st.cmd.totLen.setWidth 64)
  | .fragIdx => .ok (st.cmd.fragIdx.setWidth 64)
  | .fragCnt => .ok (st.cmd.fragCnt.setWidth 64)
  | .payLen => .ok (st.cmd.payLen.setWidth 64)
  | .nCnt => .ok (st.cmd.nCnt.setWidth 64)
  | .crc => .ok (st.cmd.crc.setWidth 64)
  | .addr64 => .ok st.cmd.addr64
  | .addr16 => .ok (st.cmd.addr16.setWidth 64)
  | .radius => .ok (st.cmd.radius.setWidth 64)
  | .txOpt => .ok (st.cmd.txOpt.setWidth 64)
  | .fid => .ok (st.cmd.fid.setWidth 64)
  | .atCode => .ok (st.cmd.atCode.setWidth 64)
  | .iLen => .ok (st.cmd.iLen.setWidth 64)
  | .oLen => .ok (st.cmd.oLen.setWidth 64)
  | .idx k => .ok ((IndexFile.read st.cmd.idxFile k).setWidth 64)
  | .ibuf i => readCell .ibuf st.cmd.ibuf i
  | .obuf i => readCell .obuf st.cmd.obuf i

/-- A write to `CMD` (R41): the command of that code, or the illegal command (R224). -/
def runCommand (c : Byte) (st : State) : Result :=
  match decode .cmd [c] with
  | .ok i => exec i st
  | .error _ => .next (illegalCommand st)

/-- A write to `RXDATA` (R42): one parser step. -/
def runByte (b : Byte) (st : State) : Result := exec (decodeRx b) st

/-- The effect of a write of the register value in `v`'s low bits (R214, R215; log 10). A read-only register and
an `ILEN` over `BUF_CAP` are left as they are (R22; log 11). -/
def writePlace (p : Place) (v : BitVec 64) (st : State) : Result :=
  match p with
  | .cmd => runCommand (v.setWidth 8) st
  | .rxData => runByte (v.setWidth 8) st
  | .ok => .next st
  | .err => .next st
  | .status => .next st
  | .nextFid => .next st
  | .cntCrcFail => .next st
  | .cntFrameErr => .next st
  | .ver => .next { st with cmd := { st.cmd with ver := v.setWidth 8 } }
  | .type => .next { st with cmd := { st.cmd with type := v.setWidth 8 } }
  | .msgId => .next { st with cmd := { st.cmd with msgId := v.setWidth 16 } }
  | .totLen => .next { st with cmd := { st.cmd with totLen := v.setWidth 32 } }
  | .fragIdx => .next { st with cmd := { st.cmd with fragIdx := v.setWidth 16 } }
  | .fragCnt => .next { st with cmd := { st.cmd with fragCnt := v.setWidth 16 } }
  | .payLen => .next { st with cmd := { st.cmd with payLen := v.setWidth 8 } }
  | .nCnt => .next { st with cmd := { st.cmd with nCnt := v.setWidth 8 } }
  | .crc => .next st
  | .addr64 => .next { st with cmd := { st.cmd with addr64 := v } }
  | .addr16 => .next { st with cmd := { st.cmd with addr16 := v.setWidth 16 } }
  | .radius => .next { st with cmd := { st.cmd with radius := v.setWidth 8 } }
  | .txOpt => .next { st with cmd := { st.cmd with txOpt := v.setWidth 8 } }
  | .fid => .next { st with cmd := { st.cmd with fid := v.setWidth 8 } }
  | .atCode => .next { st with cmd := { st.cmd with atCode := v.setWidth 16 } }
  | .iLen =>
    if (v.setWidth 16).toNat ≤ st.cfg.bufCap then .next { st with cmd := { st.cmd with iLen := v.setWidth 16 } }
    else .next st
  | .oLen => .next st
  | .idx k => .next { st with cmd := { st.cmd with idxFile := IndexFile.write k (v.setWidth 16) st.cmd.idxFile } }
  | .ibuf i => .next { st with cmd := { st.cmd with ibuf := Memory.write i (v.setWidth 8) st.cmd.ibuf } }
  | .obuf _ => .next st

/-- One host action. A write to an unmapped address is ignored, a read of one returns zero (R59; log 11). A read
changes no state of the block; its value is an output (R57, R213). -/
def runAction (act : HostAction) (st : State) : Result :=
  match act with
  | .hardReset => .next (resetBlock st)
  | .write addr v =>
    match placeAt st.cfg addr with
    | some p => writePlace p v st
    | none => .next st
  | .read addr =>
    match placeAt st.cfg addr with
    | some p =>
      match readPlace p st with
      | .ok v => .next { st with outputs := st.outputs ++ [.readData addr v] }
      | .error f => .fault f
    | none => .next { st with outputs := st.outputs ++ [.readData addr 0] }

/-- The write that runs the command `c`. -/
def cmdWrite (c : Byte) : HostAction := .write 0x00000 (c.setWidth 64)

/-- The write that gives the parser the byte `b`. -/
def rxWrite (b : Byte) : HostAction := .write 0x00001 (b.setWidth 64)

/-! ## Where an instruction of each format is fetched from -/

/-- The next transaction is `act`. -/
def pendFirst (act : HostAction) (st : State) : State := { st with input := act :: st.input }

/-- A message to parse: it stands in `IBUF`, and the next transaction is FRAG.PARSE, which its tag selects in (log 8). -/
def placeMessage (m : List Byte) (st : State) : State :=
  pendFirst (cmdWrite 0xF9)
    { st with cmd := { st.cmd with ibuf := Memory.ofBytes 0 m, iLen := BitVec.ofNat 16 m.length } }

/-- A frame to dispatch: its body is received, and the next transaction is its checksum byte, escaped when an
encoder escapes it (log 7). -/
def placeFrame (f : List Byte) (st : State) : State :=
  let c := cksum f
  let escaped := c == Config.startDelim || c == Config.escByte
  pendFirst (rxWrite (if escaped then c ^^^ Config.escXor else c))
    { st with par := { st.par with
        pstate := .checksum, esc := escaped, flen := BitVec.ofNat 16 f.length, idx := BitVec.ofNat 9 f.length,
        sum := sum8 f, fbuf := Memory.ofBytes 0 f } }

/-- The state whose next step runs the instruction with these bytes, each format where the block takes it from. -/
def placeInstr (fmt : Format) (bytes : List Byte) (st : State) : State :=
  match fmt with
  | .cmd => pendFirst (cmdWrite (byteAt bytes 0)) st
  | .rxByte => pendFirst (rxWrite (byteAt bytes 0)) st
  | .apiFrame => placeFrame bytes st
  | .fragMsg => placeMessage bytes st

end Sys2Proof.Machine
end

