-- ==== Sys2Proof/Machine/Step.lean ====
section
/-! DEFINITION. One step of the machine: the host's next transaction, whole (R20, R62). -/

namespace Sys2Proof.Machine

/-- One step: the next transaction of the host is taken and its action runs to its end. With none pending the
block does nothing (R253; log 5). -/
def step (s : State) : Host.Outcome State Fault Refusal :=
  match s.input with
  | [] => .next s
  | act :: rest => runAction act { s with input := rest }

/-- `s` with the opcode table's word `w` of `nbits` bits (every further bit zero) placed where the next step takes
its instruction from (log 7, log 8, log 9). -/
def State.withFetchWord (s : State) (nbits w : Nat) : State :=
  placeInstr (tableFormat nbits w) (tableBytes nbits w) s

end Sys2Proof.Machine
end

