-- ==== Sys2Proof/Safety.lean ====
section
/-! DEFINITION. The terms claims are stated in: what `IBUF` and `OBUF` hold, runs of steps, the invariant of the
block, and the parser step and dispatch exactly as R171 and R186 print them. -/

namespace Sys2Proof.Machine

/-! ## Buffers -/

/-- The input string is `inp`: `ILEN` bytes within `BUF_CAP`, every one of them written (R61, R252). -/
abbrev InputIs (s : State) (inp : List Byte) : Prop :=
  inp.length = s.cmd.iLen.toNat ∧ inp.length ≤ s.cfg.bufCap ∧
    ∀ i, i < inp.length → Memory.read s.cmd.ibuf i = inp[i]?

/-- The output string is `out`: `OLEN` says its length and `OBUF` holds it from byte 0 on. Nothing is said of the
bytes after it (R12, R25). -/
abbrev OutputIs (s : State) (out : List Byte) : Prop :=
  s.cmd.oLen.toNat = out.length ∧ ∀ i, i < out.length → Memory.read s.cmd.obuf i = out[i]?

/-- The body received so far is `f`: `FBUF[0..idx)` (R33). -/
abbrev ReceivedIs (p : ParserUnit) (f : List Byte) : Prop :=
  f.length = p.idx.toNat ∧ ∀ i, i < f.length → Memory.read p.fbuf i = f[i]?

/-- Bit `j` of byte `i` flipped (R108 (b)). -/
def flipBit (s : List Byte) (i j : Nat) : List Byte := s.set i (byteAt s i ^^^ (1#8 <<< j))

/-! ## Runs -/

/-- `n` steps, stopping at the first fault or refusal. -/
def runSteps : Nat → State → Result
  | 0, s => .next s
  | n + 1, s =>
    match step s with
    | .next t => runSteps n t
    | .fault f => .fault f
    | .refused r => .refused r

/-! ## Host reads -/

/-- Whatever transactions follow, the read of `a` is taken, outputs `v` and changes nothing else (R57, R213). -/
def ReadGives (s : State) (a : HostAddr) (v : BitVec 64) : Prop :=
  ∀ rest : List HostAction, step { s with input := .read a :: rest } =
    .next { s with input := rest, outputs := s.outputs ++ [.readData a v] }

/-! ## Outcomes of a command -/

/-- The state after a command failed with code `e` (R222). -/
def State.failed (s : State) (e : Byte) : State := { s with cmd := { s.cmd with ok := false, err := e } }

/-- The state after a fragment message was dropped for its CRC (R132): the failure, and one more in `CNT_CRC_FAIL`
modulo 2^`CNT_W`. -/
def State.crcDropped (s : State) : State :=
  { s with cmd := { s.cmd with ok := false, err := 0x03, cntCrcFail := (s.cmd.cntCrcFail + 1) % 2 ^ s.cfg.cntW } }

/-- The commands whose `E_CRC` counts (R38, R235). -/
def countsCrcFailure (i : Instr) : Bool :=
  i == .fragParseData || i == .fragParseNack || i == .fragParseDone || i == .fragParse

/-! ## The address map as R58 prints it -/

/-- The rows of R58 that are one address each. -/
def addressTable : List (Nat × Place) :=
  [(0x00000, .cmd), (0x00001, .rxData), (0x00002, .ok), (0x00003, .err), (0x00004, .status), (0x00005, .nextFid),
   (0x00008, .cntCrcFail), (0x00010, .cntFrameErr), (0x00020, .ver), (0x00021, .type), (0x00022, .msgId),
   (0x00024, .totLen), (0x00028, .fragIdx), (0x0002A, .fragCnt), (0x0002C, .payLen), (0x0002D, .nCnt),
   (0x0002E, .crc), (0x00030, .addr64), (0x00038, .addr16), (0x0003A, .radius), (0x0003B, .txOpt),
   (0x0003C, .fid), (0x0003E, .atCode), (0x00040, .iLen), (0x00042, .oLen)]

/-- The width and the write access of a place other than `CMD` and `RXDATA` (R58): `some w` for read/write. -/
def Place.writableWidth : Place → Option Nat
  | .cmd | .rxData | .ok | .err | .status | .nextFid | .cntCrcFail | .cntFrameErr | .crc | .oLen => none
  | .obuf _ => none
  | .ver | .type | .payLen | .nCnt | .radius | .txOpt | .fid => some 8
  | .msgId | .fragIdx | .fragCnt | .addr16 | .atCode | .iLen => some 16
  | .totLen => some 32
  | .addr64 => some 64
  | .idx _ => some 16
  | .ibuf _ => some 8

/-! ## The invariant -/

/-- `FBUF[0..idx)` holds bytes whose sum is `sum` (R31, R33). -/
def sumHolds (p : ParserUnit) : Bool :=
  match readBytes .fbuf p.fbuf 0 p.idx.toNat with
  | .ok f => sum8 f == p.sum
  | .error _ => false

/-- The parser's invariant: R48, and what it takes to be kept by every step. -/
def parserInv (p : ParserUnit) : Bool :=
  match p.pstate with
  | .waitingForStart => !p.esc
  | .lengthMsb => p.sum == 0
  | .lengthLsb => p.sum == 0 && decide (p.flen.toNat % 256 = 0)
  | .frameData => lengthOk p.flen && decide (p.idx.toNat < p.flen.toNat) && sumHolds p
  | .checksum => lengthOk p.flen && decide (p.idx.toNat = p.flen.toNat) && sumHolds p

/-- R48 as it is printed. -/
def parserFacts (p : ParserUnit) : Prop :=
  (p.pstate = .waitingForStart → p.esc = false) ∧
  (p.pstate = .frameData → 1 ≤ p.flen.toNat ∧ p.flen.toNat ≤ 256 ∧ p.idx.toNat < p.flen.toNat) ∧
  (p.pstate = .checksum → p.idx.toNat = p.flen.toNat ∧ ∃ f, ReceivedIs p f ∧ p.sum = sum8 f)

/-- What every state of the command unit keeps: `ILEN <= BUF_CAP` (U4), `NEXT_FID` never 0 (R37), the counter below
2^`CNT_W` (R38), the buffers and the index file in canonical form, `OBUF` listing exactly `[0..OLEN)`, and `OK` and
`ERR` agreeing (R35). -/
def commandInv (cfg : Params) (c : CommandUnit) : Bool :=
  decide (c.iLen.toNat ≤ cfg.bufCap) && decide (c.oLen.toNat ≤ cfg.bufCap) && c.nextFid != 0 &&
  decide (c.cntCrcFail < 2 ^ cfg.cntW) && Memory.wf cfg.bufCap c.ibuf && Memory.wf cfg.bufCap c.obuf &&
  decide (c.obuf.length = c.oLen.toNat) && IndexFile.wf c.idxFile &&
  decide (c.err.toNat ≤ 8) && (!c.ok || c.err == 0)

/-- The block's invariant: the parameters are in range (U10) and both units keep their own. -/
def State.inv (s : State) : Bool :=
  s.cfg.ok && commandInv s.cfg s.cmd && parserInv s.par && Memory.wf Config.fbufCap s.par.fbuf &&
  decide (s.par.cntFrameErr < 2 ^ s.cfg.cntW)

/-! ## The parser as R171 and R186 print it -/

/-- `FBUF[0..n)` as a string. -/
def frameBytes (m : Memory) (n : Nat) : List Byte := (List.range n).map fun i => (Memory.read m i).getD 0

/-- `dispatch(F)` (R186) with the records of R190 to R196: the event a checked frame with body `f` gives. -/
def frameEvent (f : List Byte) : Event :=
  let t := byteAt f 0
  if t = 0x10 then
    if f.length < 14 then .error 0x13
    else .txRequest (byteAt f 1) (get64 f 2) (get16 f 10) (byteAt f 12) (byteAt f 13) (f.drop 14)
  else if t = 0x90 then
    if f.length < 12 then .error 0x13 else .rxPacket (get64 f 1) (get16 f 9) (byteAt f 11) (f.drop 12) none
  else if t = 0x91 then
    if f.length < 18 then .error 0x13
    else .rxPacket (get64 f 1) (get16 f 9) (byteAt f 17) (f.drop 18)
      (some { srcEp := byteAt f 11, dstEp := byteAt f 12, cluster := get16 f 13, profile := get16 f 15 })
  else if t = 0x8B then
    if f.length < 7 then .error 0x13 else .txStatus (byteAt f 1) (get16 f 2) (byteAt f 4) (byteAt f 5) (byteAt f 6)
  else if t = 0x08 then
    if f.length < 4 then .error 0x13 else .atCommand (byteAt f 1) (get16 f 2) (f.drop 4)
  else if t = 0x88 then
    if f.length < 5 then .error 0x13 else .atResponse (byteAt f 1) (get16 f 2) (byteAt f 4) (f.drop 5)
  else .unknownFrame t f

/-- Whether an event is an error report, which `CNT_FRAME_ERR` counts (R39, R235). -/
def Event.isError : Event → Bool
  | .error _ => true
  | .txRequest _ _ _ _ _ _ => false
  | .rxPacket _ _ _ _ _ => false
  | .txStatus _ _ _ _ _ => false
  | .atCommand _ _ _ => false
  | .atResponse _ _ _ _ => false
  | .unknownFrame _ _ => false

/-- Part 4 of R171: the de-escaped byte `d` is consumed by the current state. -/
def specConsume (p : ParserUnit) (d : Byte) : ParserUnit × Option Event :=
  match p.pstate with
  | .waitingForStart => (p, none)
  | .lengthMsb => ({ p with flen := BitVec.ofNat 16 (d.toNat * 256), pstate := .lengthLsb }, none)
  | .lengthLsb =>
    let flen := p.flen + BitVec.ofNat 16 d.toNat
    if flen = 0 ∨ 256 < flen.toNat then ({ p with flen := flen, pstate := .waitingForStart }, some (.error 0x11))
    else ({ p with flen := flen, idx := 0, pstate := .frameData }, none)
  | .frameData =>
    let q := { p with fbuf := Memory.write p.idx.toNat d p.fbuf, sum := p.sum + d, idx := p.idx + 1 }
    (if q.idx.toNat = q.flen.toNat then { q with pstate := .checksum } else q, none)
  | .checksum =>
    let q := { p with sum := p.sum + d, pstate := .waitingForStart }
    (q, some (if q.sum ≠ 0xFF then .error 0x12 else frameEvent (frameBytes q.fbuf q.flen.toNat)))

/-- The step of R171 without the counter: (parser state, byte) to (parser state, optional event) (R45). -/
def specStep (r : EscRepeat) (p : ParserUnit) (b : Byte) : ParserUnit × Option Event :=
  if b = 0x7E then ({ p with pstate := .lengthMsb, esc := false, sum := 0, flen := 0, idx := 0 }, none)
  else if p.pstate = .waitingForStart then (p, none)
  else if p.esc = false ∧ b = 0x7D then ({ p with esc := true }, none)
  else if p.esc = true ∧ b = 0x7D ∧ r = .latch then (p, none)
  else if p.esc = true then specConsume { p with esc := false } (b ^^^ 0x20)
  else specConsume p b

/-- The step of R171 on the whole state: the counter moves with an `ERR` event (R39), and the event is an output. -/
def specParser (s : State) (b : Byte) : State :=
  match specStep s.cfg.escRepeat s.par b with
  | (p, none) => { s with par := p }
  | (p, some e) =>
    { s with
      par := { p with cntFrameErr := if e.isError then countUp s.cfg.cntW p.cntFrameErr else p.cntFrameErr }
      outputs := s.outputs ++ [.event e] }

end Sys2Proof.Machine
end

