-- ==== Sys2Proof/Certificates/Slice0/Obligations.lean ====
section
/-! DEFINITION. The statements for the provers. Each docstring names the rule of the spec a statement formalises, or
says that the statement rests on a choice of the model and names the log entry. -/

open Sys2Proof Sys2Proof.Machine

/-! ## CRC unit -/

/-- R102: `CRC_TABLE[i]` is the value the inner loop leaves from `i << 8`, for each of the 256 entries. -/
def Obligations.CrcTableEntriesAreTheBitLoop : Prop :=
  Config.crcTable.length = 256 ∧
  ∀ i : Nat, i < 256 → Config.crcTable.getD i 0 = crcLoop (BitVec.ofNat 16 i <<< 8)

/-- R103: the table-driven form gives the same function, from 0xFFFF and from every other register value. -/
def Obligations.TableDrivenCrcIsTheBitLevelCrc : Prop :=
  (∀ s : List Byte, crcTableFrom 0xFFFF s = crc16 s) ∧
  ∀ (c : Half) (s : List Byte), crcTableFrom c s = crcFrom c s

/-- R104: `verify` is false under two bytes, else compares the last two bytes with the CRC of the rest; `append`
adds the CRC big-endian; `verify` accepts every `append`. -/
def Obligations.VerifyAcceptsEveryAppend : Prop :=
  (∀ s : List Byte, s.length < 2 → crcVerify s = false) ∧
  (∀ s : List Byte, 2 ≤ s.length →
    (crcVerify s = true ↔ get16 s (s.length - 2) = crc16 (s.take (s.length - 2)))) ∧
  (∀ s : List Byte, crcAppend s = s ++ [(crc16 s).extractLsb' 8 8, (crc16 s).extractLsb' 0 8]) ∧
  ∀ s : List Byte, crcVerify (crcAppend s) = true

/-- R108: `verify` accepts a string with its CRC; flipping any single bit of such a string, its CRC included, makes
it false; the residue of the whole is zero; and the CRC streams. -/
def Obligations.CrcPropertiesHold : Prop :=
  (∀ s : List Byte, crcVerify (s ++ be16 (crc16 s)) = true) ∧
  (∀ (s : List Byte) (i j : Nat), i < (s ++ be16 (crc16 s)).length → j < 8 →
    crcVerify (flipBit (s ++ be16 (crc16 s)) i j) = false) ∧
  (∀ s : List Byte, crc16 (s ++ be16 (crc16 s)) = 0x0000) ∧
  (∀ t : List Byte, 2 ≤ t.length → (crcVerify t = true ↔ crc16 t = 0)) ∧
  ∀ s t : List Byte, crc16 (s ++ t) = crcFrom (crc16 s) t

/-- R105: CRC.COMPUTE writes `CRC`, `OK` and `ERR`, and nothing else; it cannot fail on an input that is written. -/
def Obligations.CrcComputeStoresTheCrc : Prop :=
  decode .cmd [0xC1] = .ok .crcCompute ∧
  crc16 [] = 0xFFFF ∧ crc16 [0x31, 0x32, 0x33, 0x34, 0x35, 0x36, 0x37, 0x38, 0x39] = 0x29B1 ∧
  ∀ (s : State) (inp : List Byte), InputIs s inp →
    exec .crcCompute s = .next { s with cmd := { s.cmd with crc := crc16 inp, ok := true, err := 0x00 } }

/-- R106: CRC.VERIFY answers `verify(in)` in `OK` with the reason in `ERR`, and writes nothing else: no counter, not
`CRC`. -/
def Obligations.CrcVerifyAnswersVerify : Prop :=
  decode .cmd [0xC2] = .ok .crcVerify ∧
  (∀ s : State, s.cmd.iLen.toNat < 2 → exec .crcVerify s = .next (s.failed 0x02)) ∧
  ∀ (s : State) (inp : List Byte), InputIs s inp → 2 ≤ inp.length →
    exec .crcVerify s = .next { s with cmd := { s.cmd with
      ok := crcVerify inp, err := if crcVerify inp = true then 0x00 else 0x03 } }

/-- R107: CRC.APPEND fails with E_OVERFLOW when two more bytes do not fit, else `OBUF` holds the input and its CRC
big-endian, `CRC` the CRC, and nothing else changes. -/
def Obligations.CrcAppendBuildsInputAndCrc : Prop :=
  decode .cmd [0xC3] = .ok .crcAppend ∧
  (∀ s : State, s.cfg.bufCap < s.cmd.iLen.toNat + 2 → exec .crcAppend s = .next (s.failed 0x08)) ∧
  ∀ (s : State) (inp : List Byte), s.cfg.ok = true → InputIs s inp → inp.length + 2 ≤ s.cfg.bufCap →
    ∃ t, exec .crcAppend s = .next t ∧
      OutputIs t (inp ++ [(crc16 inp).extractLsb' 8 8, (crc16 inp).extractLsb' 0 8]) ∧
      t = { s with cmd := { s.cmd with
        crc := crc16 inp, oLen := t.cmd.oLen, obuf := t.cmd.obuf, ok := true, err := 0x00 } }

/-! ## Fragment codec unit -/

/-- R122: FRAG.ENC_HDR writes the 13-byte header to `OBUF`; `CRC`, `IBUF` and every operand keep their values. -/
def Obligations.EncHdrWritesTheHeader : Prop :=
  decode .cmd [0xF1] = .ok .fragEncHdr ∧
  ∀ s : State, s.cfg.ok = true →
    ∃ t, exec .fragEncHdr s = .next t ∧ t.cmd.oLen = 13 ∧
      OutputIs t ([0x01, 0x01] ++ be16 s.cmd.msgId ++ be32 s.cmd.totLen ++ be16 s.cmd.fragIdx ++
        be16 s.cmd.fragCnt ++ [s.cmd.payLen]) ∧
      t = { s with cmd := { s.cmd with oLen := t.cmd.oLen, obuf := t.cmd.obuf, ok := true, err := 0x00 } }

/-- R124: FRAG.ENC_DATA fails with E_RANGE over 255 bytes, else builds header, payload and CRC; `PAYLEN` is neither
read nor written. -/
def Obligations.EncDataBuildsTheFragment : Prop :=
  decode .cmd [0xF2] = .ok .fragEncData ∧
  (∀ s : State, 255 < s.cmd.iLen.toNat → exec .fragEncData s = .next (s.failed 0x07)) ∧
  ∀ (s : State) (inp head : List Byte), s.cfg.ok = true → InputIs s inp → inp.length ≤ 255 →
    head = [0x01, 0x01] ++ be16 s.cmd.msgId ++ be32 s.cmd.totLen ++ be16 s.cmd.fragIdx ++ be16 s.cmd.fragCnt ++
      [BitVec.ofNat 8 inp.length] ++ inp →
    ∃ t, exec .fragEncData s = .next t ∧ t.cmd.oLen.toNat = 15 + inp.length ∧ OutputIs t (head ++ be16 (crc16 head)) ∧
      t = { s with cmd := { s.cmd with
        crc := crc16 head, oLen := t.cmd.oLen, obuf := t.cmd.obuf, ok := true, err := 0x00 } }

/-- R126: FRAG.BUILD_NACK builds the NACK of `IDX[0..NCNT)` in file order; it reads neither `IBUF` nor `ILEN` and
cannot fail. -/
def Obligations.BuildNackListsTheIndexFile : Prop :=
  decode .cmd [0xF3] = .ok .fragBuildNack ∧
  ∀ (s : State) (head : List Byte), s.cfg.ok = true →
    head = [0x01, 0x02] ++ be16 s.cmd.msgId ++ [s.cmd.nCnt] ++
      ((List.range s.cmd.nCnt.toNat).map fun k => IndexFile.read s.cmd.idxFile k).flatMap be16 →
    ∃ t, exec .fragBuildNack s = .next t ∧ t.cmd.oLen.toNat = 7 + 2 * s.cmd.nCnt.toNat ∧
      OutputIs t (head ++ be16 (crc16 head)) ∧
      t = { s with cmd := { s.cmd with
        crc := crc16 head, oLen := t.cmd.oLen, obuf := t.cmd.obuf, ok := true, err := 0x00 } }

/-- R128: FRAG.BUILD_DONE builds the 6-byte DONE for every `MSGID`. -/
def Obligations.BuildDoneBuildsSixBytes : Prop :=
  decode .cmd [0xF4] = .ok .fragBuildDone ∧
  ∀ (s : State) (head : List Byte), s.cfg.ok = true → head = [0x01, 0x03] ++ be16 s.cmd.msgId →
    ∃ t, exec .fragBuildDone s = .next t ∧ t.cmd.oLen = 6 ∧ OutputIs t (head ++ be16 (crc16 head)) ∧
      t = { s with cmd := { s.cmd with
        crc := crc16 head, oLen := t.cmd.oLen, obuf := t.cmd.obuf, ok := true, err := 0x00 } }

/-- R130: FRAG.DEC_HDR fails with E_SHORT under 13 bytes, else decodes the first 13 bytes whatever they and the
bytes after them are. -/
def Obligations.DecHdrDecodesThirteenBytes : Prop :=
  decode .cmd [0xF5] = .ok .fragDecHdr ∧
  (∀ s : State, s.cmd.iLen.toNat < 13 → exec .fragDecHdr s = .next (s.failed 0x02)) ∧
  ∀ (s : State) (h : List Byte), s.cfg.ok = true → h.length = 13 → 13 ≤ s.cmd.iLen.toNat →
    (∀ i, i < 13 → Memory.read s.cmd.ibuf i = h[i]?) →
    exec .fragDecHdr s = .next { s with cmd := { s.cmd with
      ver := byteAt h 0, type := byteAt h 1, msgId := get16 h 2, totLen := get32 h 4, fragIdx := get16 h 8,
      fragCnt := get16 h 10, payLen := byteAt h 12, ok := true, err := 0x00 } }

/-- R133: FRAG.PARSE_DATA's tests in their order with what each failure changes, and what a success delivers. -/
def Obligations.ParseDataValidatesAndDelivers : Prop :=
  decode .cmd [0xF6] = .ok .fragParseData ∧
  (∀ s : State, s.cmd.iLen.toNat < 15 → exec .fragParseData s = .next (s.failed 0x02)) ∧
  ∀ (s : State) (m : List Byte), s.cfg.ok = true → InputIs s m → 15 ≤ m.length →
    (crcVerify m = false → exec .fragParseData s = .next s.crcDropped) ∧
    (crcVerify m = true → byteAt m 0 ≠ 0x01 → exec .fragParseData s = .next (s.failed 0x04)) ∧
    (crcVerify m = true → byteAt m 0 = 0x01 → byteAt m 1 ≠ 0x01 → exec .fragParseData s = .next (s.failed 0x05)) ∧
    (crcVerify m = true → byteAt m 0 = 0x01 → byteAt m 1 = 0x01 → m.length ≠ 15 + (byteAt m 12).toNat →
      exec .fragParseData s = .next (s.failed 0x06)) ∧
    (crcVerify m = true → byteAt m 0 = 0x01 → byteAt m 1 = 0x01 → m.length = 15 + (byteAt m 12).toNat →
      ∃ t, exec .fragParseData s = .next t ∧ OutputIs t (slice m 13 (byteAt m 12).toNat) ∧
        t = { s with cmd := { s.cmd with
          ver := byteAt m 0, type := byteAt m 1, msgId := get16 m 2, totLen := get32 m 4, fragIdx := get16 m 8,
          fragCnt := get16 m 10, payLen := byteAt m 12, crc := get16 m (m.length - 2), oLen := t.cmd.oLen,
          obuf := t.cmd.obuf, ok := true, err := 0x00 } })

/-- R135: FRAG.PARSE_NACK's tests in their order, and what a success delivers: `IDX[n]` and above keep their values. -/
def Obligations.ParseNackValidatesAndDelivers : Prop :=
  decode .cmd [0xF7] = .ok .fragParseNack ∧
  (∀ s : State, s.cmd.iLen.toNat < 7 → exec .fragParseNack s = .next (s.failed 0x02)) ∧
  ∀ (s : State) (m : List Byte), InputIs s m → 7 ≤ m.length →
    (crcVerify m = false → exec .fragParseNack s = .next s.crcDropped) ∧
    (crcVerify m = true → byteAt m 0 ≠ 0x01 → exec .fragParseNack s = .next (s.failed 0x04)) ∧
    (crcVerify m = true → byteAt m 0 = 0x01 → byteAt m 1 ≠ 0x02 → exec .fragParseNack s = .next (s.failed 0x05)) ∧
    (crcVerify m = true → byteAt m 0 = 0x01 → byteAt m 1 = 0x02 → m.length ≠ 7 + 2 * (byteAt m 4).toNat →
      exec .fragParseNack s = .next (s.failed 0x06)) ∧
    (crcVerify m = true → byteAt m 0 = 0x01 → byteAt m 1 = 0x02 → m.length = 7 + 2 * (byteAt m 4).toNat →
      ∃ t, exec .fragParseNack s = .next t ∧
        (∀ k, IndexFile.read t.cmd.idxFile k =
          if k < (byteAt m 4).toNat then get16 m (5 + 2 * k) else IndexFile.read s.cmd.idxFile k) ∧
        t = { s with cmd := { s.cmd with
          ver := byteAt m 0, type := byteAt m 1, msgId := get16 m 2, nCnt := byteAt m 4,
          idxFile := t.cmd.idxFile, crc := get16 m (m.length - 2), ok := true, err := 0x00 } })

/-- R137: FRAG.PARSE_DONE's tests in their order, and what a success delivers. -/
def Obligations.ParseDoneValidatesAndDelivers : Prop :=
  decode .cmd [0xF8] = .ok .fragParseDone ∧
  (∀ s : State, s.cmd.iLen.toNat < 6 → exec .fragParseDone s = .next (s.failed 0x02)) ∧
  ∀ (s : State) (m : List Byte), InputIs s m → 6 ≤ m.length →
    (crcVerify m = false → exec .fragParseDone s = .next s.crcDropped) ∧
    (crcVerify m = true → byteAt m 0 ≠ 0x01 → exec .fragParseDone s = .next (s.failed 0x04)) ∧
    (crcVerify m = true → byteAt m 0 = 0x01 → byteAt m 1 ≠ 0x03 → exec .fragParseDone s = .next (s.failed 0x05)) ∧
    (crcVerify m = true → byteAt m 0 = 0x01 → byteAt m 1 = 0x03 → m.length ≠ 6 →
      exec .fragParseDone s = .next (s.failed 0x06)) ∧
    (crcVerify m = true → byteAt m 0 = 0x01 → byteAt m 1 = 0x03 → m.length = 6 →
      exec .fragParseDone s = .next { s with cmd := { s.cmd with
        ver := byteAt m 0, type := byteAt m 1, msgId := get16 m 2, crc := get16 m 4, ok := true, err := 0x00 } })

/-- R139: FRAG.PARSE fails with E_SHORT without a second byte and with E_TYPE on an unknown tag (before any CRC
test), else it behaves exactly as the parser its tag selects. -/
def Obligations.ParseDispatchesOnTheTag : Prop :=
  decode .cmd [0xF9] = .ok .fragParse ∧
  (∀ s : State, s.cmd.iLen.toNat < 2 → exec .fragParse s = .next (s.failed 0x02)) ∧
  ∀ (s : State) (m : List Byte), InputIs s m → 2 ≤ m.length →
    (byteAt m 1 = 0x01 → exec .fragParse s = exec .fragParseData s) ∧
    (byteAt m 1 = 0x02 → exec .fragParse s = exec .fragParseNack s) ∧
    (byteAt m 1 = 0x03 → exec .fragParse s = exec .fragParseDone s) ∧
    (byteAt m 1 ≠ 0x01 → byteAt m 1 ≠ 0x02 → byteAt m 1 ≠ 0x03 → exec .fragParse s = .next (s.failed 0x05))

/-- 41_fragment_codec section 4 (a): a DATA fragment as R121 serializes it parses back to its fields and payload,
through FRAG.PARSE_DATA and through FRAG.PARSE alike. -/
def Obligations.DataFragmentRoundTrip : Prop :=
  ∀ (s : State) (m : Half) (tl : BitVec 32) (ix cnt : Half) (p : List Byte),
    s.cfg.ok = true → p.length ≤ 255 → InputIs s (dataMsg m tl ix cnt p) →
    ∃ t, exec .fragParseData s = .next t ∧ exec .fragParse s = .next t ∧ OutputIs t p ∧
      t = { s with cmd := { s.cmd with
        ver := 0x01, type := 0x01, msgId := m, totLen := tl, fragIdx := ix, fragCnt := cnt,
        payLen := BitVec.ofNat 8 p.length, crc := crc16 (dataHead m tl ix cnt p), oLen := t.cmd.oLen,
        obuf := t.cmd.obuf, ok := true, err := 0x00 } }

/-- 41_fragment_codec section 4 (b) and (c): a NACK parses back to its id and its index list in order, a DONE to its
id, each through its own parser and through FRAG.PARSE alike. -/
def Obligations.NackAndDoneRoundTrip : Prop :=
  (∀ (s : State) (m : Half) (is : List Half), is.length ≤ 255 → InputIs s (nackMsg m is) →
    ∃ t, exec .fragParseNack s = .next t ∧ exec .fragParse s = .next t ∧
      (∀ k, IndexFile.read t.cmd.idxFile k = (is[k]?).getD (IndexFile.read s.cmd.idxFile k)) ∧
      t = { s with cmd := { s.cmd with
        ver := 0x01, type := 0x02, msgId := m, nCnt := BitVec.ofNat 8 is.length, idxFile := t.cmd.idxFile,
        crc := crc16 (nackHead m is), ok := true, err := 0x00 } }) ∧
  ∀ (s : State) (m : Half), InputIs s (doneMsg m) →
    ∃ t, exec .fragParseDone s = .next t ∧ exec .fragParse s = .next t ∧
      t = { s with cmd := { s.cmd with
        ver := 0x01, type := 0x03, msgId := m, crc := crc16 (doneHead m), ok := true, err := 0x00 } }

/-- 41_fragment_codec section 4 (d): one flipped bit of a message makes its own parser drop it as a CRC failure. -/
def Obligations.FlippedMessageIsDropped : Prop :=
  ∀ (s : State) (i j : Nat), j < 8 →
    (∀ m tl ix cnt p, p.length ≤ 255 → i < (dataMsg m tl ix cnt p).length →
      InputIs s (flipBit (dataMsg m tl ix cnt p) i j) → exec .fragParseData s = .next s.crcDropped) ∧
    (∀ m is, is.length ≤ 255 → i < (nackMsg m is).length →
      InputIs s (flipBit (nackMsg m is) i j) → exec .fragParseNack s = .next s.crcDropped) ∧
    (∀ m, i < (doneMsg m).length →
      InputIs s (flipBit (doneMsg m) i j) → exec .fragParseDone s = .next s.crcDropped)

/-- The messages as instructions (the model's placement, log 8): a message whose CRC field is the CRC of the bytes
before it is delivered as R133, R135 and R137 say. -/
def Obligations.GoodMessagesAreDelivered : Prop :=
  (∀ (s : State) (m : Half) (tl : BitVec 32) (ix cnt : Half) (p : List Byte) (c : Half),
    s.cfg.ok = true → p.length ≤ 255 → c = crc16 (dataHead m tl ix cnt p) →
    ∃ t, exec (.msgData m tl ix cnt p c) s = .next t ∧ OutputIs t p ∧
      t = { s with cmd := { s.cmd with
        ver := 0x01, type := 0x01, msgId := m, totLen := tl, fragIdx := ix, fragCnt := cnt,
        payLen := BitVec.ofNat 8 p.length, crc := c, oLen := t.cmd.oLen, obuf := t.cmd.obuf, ok := true,
        err := 0x00 } }) ∧
  (∀ (s : State) (m : Half) (is : List Half) (c : Half), is.length ≤ 255 → c = crc16 (nackHead m is) →
    ∃ t, exec (.msgNack m is c) s = .next t ∧
      (∀ k, IndexFile.read t.cmd.idxFile k = (is[k]?).getD (IndexFile.read s.cmd.idxFile k)) ∧
      t = { s with cmd := { s.cmd with
        ver := 0x01, type := 0x02, msgId := m, nCnt := BitVec.ofNat 8 is.length, idxFile := t.cmd.idxFile, crc := c,
        ok := true, err := 0x00 } }) ∧
  ∀ (s : State) (m c : Half), c = crc16 (doneHead m) →
    exec (.msgDone m c) s = .next { s with cmd := { s.cmd with
      ver := 0x01, type := 0x03, msgId := m, crc := c, ok := true, err := 0x00 } }

/-- The messages as instructions (the model's placement, log 8): a wrong CRC field drops the message, counted. -/
def Obligations.BadMessagesAreDropped : Prop :=
  (∀ (s : State) (m : Half) (tl : BitVec 32) (ix cnt : Half) (p : List Byte) (c : Half),
    c ≠ crc16 (dataHead m tl ix cnt p) → exec (.msgData m tl ix cnt p c) s = .next s.crcDropped) ∧
  (∀ (s : State) (m : Half) (is : List Half) (c : Half),
    c ≠ crc16 (nackHead m is) → exec (.msgNack m is c) s = .next s.crcDropped) ∧
  ∀ (s : State) (m c : Half), c ≠ crc16 (doneHead m) → exec (.msgDone m c) s = .next s.crcDropped

/-! ## API-frame encoder unit -/

/-- R157: API.BUILD_TX fails with E_OVERFLOW when the wire form is longer than `BUF_CAP`, which it never is up to 242
bytes of data; else `OBUF` holds the wire form, with `FID` as it is. -/
def Obligations.BuildTxWritesTheFrame : Prop :=
  decode .cmd [0xA1] = .ok .apiBuildTx ∧
  ∀ (s : State) (inp body : List Byte), s.cfg.ok = true → InputIs s inp →
    body = [0x10, s.cmd.fid] ++ be64 s.cmd.addr64 ++ be16 s.cmd.addr16 ++ [s.cmd.radius, s.cmd.txOpt] ++ inp →
    (inp.length ≤ 242 → (wire body).length ≤ s.cfg.bufCap) ∧
    (s.cfg.bufCap < (wire body).length → exec .apiBuildTx s = .next (s.failed 0x08)) ∧
    ((wire body).length ≤ s.cfg.bufCap → ∃ t, exec .apiBuildTx s = .next t ∧ OutputIs t (wire body) ∧
      t = { s with cmd := { s.cmd with oLen := t.cmd.oLen, obuf := t.cmd.obuf, ok := true, err := 0x00 } })

/-- R160: API.BUILD_TX_AUTO replaces a zero `FID` by the generator's value, which then advances and never becomes 0;
a failure changes neither; a non-zero `FID` is used as it is. -/
def Obligations.BuildTxAutoAssignsTheFrameId : Prop :=
  decode .cmd [0xA2] = .ok .apiBuildTxAuto ∧
  ∀ (s : State) (inp body : List Byte) (f : Byte), s.cfg.ok = true → InputIs s inp →
    f = (if s.cmd.fid = 0 then s.cmd.nextFid else s.cmd.fid) →
    body = [0x10, f] ++ be64 s.cmd.addr64 ++ be16 s.cmd.addr16 ++ [s.cmd.radius, s.cmd.txOpt] ++ inp →
    (s.cfg.bufCap < (wire body).length → exec .apiBuildTxAuto s = .next (s.failed 0x08)) ∧
    ((wire body).length ≤ s.cfg.bufCap → ∃ t, exec .apiBuildTxAuto s = .next t ∧ OutputIs t (wire body) ∧
      t = { s with cmd := { s.cmd with
        fid := f, oLen := t.cmd.oLen, obuf := t.cmd.obuf, ok := true, err := 0x00,
        nextFid := if s.cmd.fid = 0 then (if s.cmd.nextFid = 255 then 1 else s.cmd.nextFid + 1)
          else s.cmd.nextFid } })

/-- R161: API.BUILD_AT, as R157 with the AT Command body. -/
def Obligations.BuildAtWritesTheFrame : Prop :=
  decode .cmd [0xA3] = .ok .apiBuildAt ∧
  ∀ (s : State) (inp body : List Byte), s.cfg.ok = true → InputIs s inp →
    body = [0x08, s.cmd.fid] ++ be16 s.cmd.atCode ++ inp →
    (inp.length ≤ 252 → (wire body).length ≤ s.cfg.bufCap) ∧
    (s.cfg.bufCap < (wire body).length → exec .apiBuildAt s = .next (s.failed 0x08)) ∧
    ((wire body).length ≤ s.cfg.bufCap → ∃ t, exec .apiBuildAt s = .next t ∧ OutputIs t (wire body) ∧
      t = { s with cmd := { s.cmd with oLen := t.cmd.oLen, obuf := t.cmd.obuf, ok := true, err := 0x00 } })

/-- R162: API.BUILD_AT_AUTO, as R161 with a zero `FID` replaced by the next generated id. -/
def Obligations.BuildAtAutoAssignsTheFrameId : Prop :=
  decode .cmd [0xA4] = .ok .apiBuildAtAuto ∧
  ∀ (s : State) (inp body : List Byte) (f : Byte), s.cfg.ok = true → InputIs s inp →
    f = (if s.cmd.fid = 0 then s.cmd.nextFid else s.cmd.fid) →
    body = [0x08, f] ++ be16 s.cmd.atCode ++ inp →
    (s.cfg.bufCap < (wire body).length → exec .apiBuildAtAuto s = .next (s.failed 0x08)) ∧
    ((wire body).length ≤ s.cfg.bufCap → ∃ t, exec .apiBuildAtAuto s = .next t ∧ OutputIs t (wire body) ∧
      t = { s with cmd := { s.cmd with
        fid := f, oLen := t.cmd.oLen, obuf := t.cmd.obuf, ok := true, err := 0x00,
        nextFid := if s.cmd.fid = 0 then (if s.cmd.nextFid = 255 then 1 else s.cmd.nextFid + 1)
          else s.cmd.nextFid } })

/-- R152: in the wire form 0x7E stands at offset 0 and nowhere else, 0x11 and 0x13 nowhere, and every 0x7D is
followed by one of 0x5E, 0x5D, 0x31, 0x33. -/
def Obligations.EscapingIsTransparent : Prop :=
  ∀ body : List Byte, ∃ w : List Byte, wire body = 0x7E :: w ∧ 0x7E ∉ w ∧ 0x11 ∉ w ∧ 0x13 ∉ w ∧
    ∀ i, w[i]? = some (0x7D : Byte) →
      w[i + 1]? = some (0x5E : Byte) ∨ w[i + 1]? = some (0x5D : Byte) ∨ w[i + 1]? = some (0x31 : Byte) ∨ w[i + 1]? = some (0x33 : Byte)

/-- R156: the checksum is 0xFF less the sum of the body modulo 256, in all the forms the rule gives. -/
def Obligations.ChecksumClosesTheBody : Prop :=
  ∀ body : List Byte,
    (cksum body).toNat = 255 - (body.map BitVec.toNat).sum % 256 ∧
    ((cksum body).toNat : Int) = (255 - ((body.map BitVec.toNat).sum : Int)) % 256 ∧
    cksum body = sum8 body ^^^ 0xFF ∧ sum8 body + cksum body = 0xFF ∧
    (sum8 body).toNat = (body.map BitVec.toNat).sum % 256

/-- R165: `next` is `f mod 255 + 1` on 1..255 and stays there, so 0 is never reached from the reset value 1; and no step
of the machine takes `NEXT_FID` out of 1..255. -/
def Obligations.FrameIdsAreNeverZero : Prop :=
  (∀ f : Byte, f ≠ 0 → (nextFrameId f).toNat = f.toNat % 255 + 1 ∧ nextFrameId f ≠ 0) ∧
  (∀ n : Nat, (nextFrameId^[n] 1).toNat = n % 255 + 1 ∧ nextFrameId^[n] 1 ≠ 0) ∧
  State.reset.cmd.nextFid = 1 ∧
  ∀ s t : State, s.cmd.nextFid ≠ 0 → step s = .next t → t.cmd.nextFid ≠ 0

/-- 42_api_encoder section 6 (round trip with the parser): what a successful API.BUILD_TX or API.BUILD_AT leaves in
`OBUF`, fed byte by byte to a parser in any state, gives no event before its last byte and there exactly the record
with the original fields. -/
def Obligations.BuiltFramesParseBack : Prop :=
  ∀ (s : State) (inp : List Byte), s.cfg.ok = true → InputIs s inp →
    (14 + inp.length ≤ 256 → ∃ (t : State) (w : List Byte), exec .apiBuildTx s = .next t ∧ OutputIs t w ∧
      ∀ (u : State) (rest : List HostAction), u.input = w.map rxWrite ++ rest →
        (∀ k, k < w.length → ∃ v, runSteps k u = .next v ∧ v.outputs = u.outputs) ∧
        ∃ v, runSteps w.length u = .next v ∧ v.outputs = u.outputs ++
          [.event (.txRequest s.cmd.fid s.cmd.addr64 s.cmd.addr16 s.cmd.radius s.cmd.txOpt inp)]) ∧
    (4 + inp.length ≤ 256 → ∃ (t : State) (w : List Byte), exec .apiBuildAt s = .next t ∧ OutputIs t w ∧
      ∀ (u : State) (rest : List HostAction), u.input = w.map rxWrite ++ rest →
        (∀ k, k < w.length → ∃ v, runSteps k u = .next v ∧ v.outputs = u.outputs) ∧
        ∃ v, runSteps w.length u = .next v ∧ v.outputs = u.outputs ++
          [.event (.atCommand s.cmd.fid s.cmd.atCode inp)])

/-! ## Stream parser unit -/

/-- R173 and R174: a raw 0x7E opens a frame in every state, whatever the latch holds, with no event and no count;
any other byte is discarded while idle. -/
def Obligations.DelimiterOpensAndIdleDiscards : Prop :=
  (∀ s : State, exec .rxStart s =
    .next { s with par := { s.par with pstate := .lengthMsb, esc := false, sum := 0, flen := 0, idx := 0 } }) ∧
  ∀ (s : State) (b : Byte), b ≠ 0x7E → s.par.pstate = .waitingForStart → exec (decodeRx b) s = .next s

/-- R175: the four cases of a byte outside `WaitingForStart` that is not 0x7E: it sets the latch, is de-escaped, is
taken as it is, or is a second 0x7D, where `ESC_REPEAT` decides. -/
def Obligations.EscapeLatchFourCases : Prop :=
  ∀ (s : State) (b : Byte), s.par.pstate ≠ .waitingForStart → b ≠ 0x7E →
    (s.par.esc = false → b = 0x7D →
      exec (decodeRx b) s = .next { s with par := { s.par with esc := true } }) ∧
    (s.par.esc = true → b ≠ 0x7D →
      exec (decodeRx b) s = consume (b ^^^ 0x20) { s with par := { s.par with esc := false } }) ∧
    (s.par.esc = false → b ≠ 0x7D → exec (decodeRx b) s = consume b s) ∧
    (s.par.esc = true → b = 0x7D → s.cfg.escRepeat = .data →
      exec (decodeRx b) s = consume 0x5D { s with par := { s.par with esc := false } }) ∧
    (s.par.esc = true → b = 0x7D → s.cfg.escRepeat = .latch → exec (decodeRx b) s = .next s)

/-- R176 to R179: the first length byte is not checked; the second completes the big-endian length, and the range
check is made on it: 1 to 256 begins the body, anything else is `P_LENGTH`, counted. -/
def Obligations.LengthBytesAreAssembledAndChecked : Prop :=
  ∀ (s : State) (b d : Byte), b ≠ 0x7E → b ≠ 0x7D → d = (if s.par.esc = true then b ^^^ 0x20 else b) →
    (s.par.pstate = .lengthMsb → exec (.rxByte b) s = .next { s with par := { s.par with
      flen := BitVec.ofNat 16 (d.toNat * 256), pstate := .lengthLsb, esc := false } }) ∧
    (∀ n : Nat, s.par.pstate = .lengthLsb → n = (s.par.flen.toNat + d.toNat) % 65536 →
      (1 ≤ n ∧ n ≤ 256 → exec (.rxByte b) s = .next { s with par := { s.par with
        flen := BitVec.ofNat 16 n, idx := 0, pstate := .frameData, esc := false } }) ∧
      (n = 0 ∨ 256 < n → exec (.rxByte b) s = .next { s with
        par := { s.par with
          flen := BitVec.ofNat 16 n, pstate := .waitingForStart, esc := false,
          cntFrameErr := (s.par.cntFrameErr + 1) % 2 ^ s.cfg.cntW }
        outputs := s.outputs ++ [.event (.error 0x11)] }))

/-- R180 and R181: a body byte is stored de-escaped at `idx`, summed and counted; the last one ends the body; no
event. -/
def Obligations.BodyBytesAreStoredAndSummed : Prop :=
  ∀ (s : State) (b d : Byte), b ≠ 0x7E → b ≠ 0x7D → d = (if s.par.esc = true then b ^^^ 0x20 else b) →
    s.par.pstate = .frameData → s.par.idx.toNat < s.par.flen.toNat → s.par.flen.toNat ≤ 256 →
    ∃ t, exec (.rxByte b) s = .next t ∧
      (∀ i, Memory.read t.par.fbuf i = if i = s.par.idx.toNat then some d else Memory.read s.par.fbuf i) ∧
      t.par.idx.toNat = s.par.idx.toNat + 1 ∧
      t = { s with par := { s.par with
        fbuf := t.par.fbuf, idx := t.par.idx, sum := s.par.sum + d, esc := false,
        pstate := if s.par.idx.toNat + 1 = s.par.flen.toNat then .checksum else .frameData } }

/-- R182 to R185: the checksum byte leaves the parser idle; the frame is valid exactly when the total is 0xFF, and
then its body is dispatched, else `P_CHECKSUM` is emitted and counted and the frame's bytes are not delivered. -/
def Obligations.ChecksumDecidesTheFrame : Prop :=
  ∀ (s : State) (b d : Byte) (f : List Byte), b ≠ 0x7E → b ≠ 0x7D →
    d = (if s.par.esc = true then b ^^^ 0x20 else b) → s.par.pstate = .checksum → ReceivedIs s.par f →
    s.par.flen.toNat = f.length → s.par.sum = sum8 f →
    (d = 0xFF - sum8 f → exec (.rxByte b) s = dispatchFrame f { s with par := { s.par with
      sum := 0xFF, pstate := .waitingForStart, esc := false } }) ∧
    (d ≠ 0xFF - sum8 f → exec (.rxByte b) s = .next { s with
      par := { s.par with
        sum := s.par.sum + d, pstate := .waitingForStart, esc := false,
        cntFrameErr := (s.par.cntFrameErr + 1) % 2 ^ s.cfg.cntW }
      outputs := s.outputs ++ [.event (.error 0x12)] })

/-- R186 with R189 to R196: the event of a checked frame is the record its type and length select, exactly as the
rules print it, and only an error report counts. -/
def Obligations.DispatchFollowsTheRules : Prop :=
  ∀ (s : State) (f : List Byte), f ≠ [] → s.par.pstate = .waitingForStart →
    dispatchFrame f s = .next { s with
      par := { s.par with cntFrameErr :=
        if (frameEvent f).isError = true then (s.par.cntFrameErr + 1) % 2 ^ s.cfg.cntW else s.par.cntFrameErr }
      outputs := s.outputs ++ [.event (frameEvent f)] }

/-- The frames as instructions (the model's placement, log 7): each gives the record of R190 to R195 with its fields,
and changes nothing of the block. -/
def Obligations.FramesGiveTheirRecords : Prop :=
  (∀ s fid a64 a16 r o d, exec (.frameTxRequest fid a64 a16 r o d) s =
    .next { s with outputs := s.outputs ++ [.event (.txRequest fid a64 a16 r o d)] }) ∧
  (∀ s fid c p, exec (.frameAtCommand fid c p) s =
    .next { s with outputs := s.outputs ++ [.event (.atCommand fid c p)] }) ∧
  (∀ s a64 a16 o d, exec (.frameRxPacket a64 a16 o d) s =
    .next { s with outputs := s.outputs ++ [.event (.rxPacket a64 a16 o d none)] }) ∧
  (∀ s a64 a16 se de cl pr o d, exec (.frameExplicitRx a64 a16 se de cl pr o d) s =
    .next { s with outputs := s.outputs ++ [.event (.rxPacket a64 a16 o d
      (some { srcEp := se, dstEp := de, cluster := cl, profile := pr }))] }) ∧
  (∀ s fid a16 r ds dd, exec (.frameTxStatus fid a16 r ds dd) s =
    .next { s with outputs := s.outputs ++ [.event (.txStatus fid a16 r ds dd)] }) ∧
  ∀ s fid c st d, exec (.frameAtResponse fid c st d) s =
    .next { s with outputs := s.outputs ++ [.event (.atResponse fid c st d)] }

/-- R171: from every state of the parser's invariant and for every byte, the parser step answers exactly what the
rule's pseudocode gives; it never faults and is never stuck. -/
def Obligations.ParserStepIsTheRule : Prop :=
  ∀ (s : State) (b : Byte), parserInv s.par = true → exec (decodeRx b) s = .next (specParser s b)

/-- R48: the parser's invariant gives the facts of the rule, holds at reset, and every parser step keeps it. -/
def Obligations.ParserFactsHold : Prop :=
  (∀ p : ParserUnit, parserInv p = true → parserFacts p) ∧ parserInv State.reset.par = true ∧
  ∀ (s t : State) (b : Byte), parserInv s.par = true → exec (decodeRx b) s = .next t → parserInv t.par = true

/-- R201: an event comes only in the step that consumes the second length byte (then `P_LENGTH`) or the checksum
byte, never with 0x7E, never when the latch is only set, never while idle; and between one 0x7E and the next there is
at most one. -/
def Obligations.AtMostOneEventPerFrame : Prop :=
  (∀ (s t : State) (b : Byte), exec (decodeRx b) s = .next t →
    t.outputs = s.outputs ∨
    ∃ e, t.outputs = s.outputs ++ [.event e] ∧ b ≠ 0x7E ∧ ¬(b = 0x7D ∧ s.par.esc = false) ∧
      (s.par.pstate = .lengthLsb ∧ e = .error 0x11 ∨ s.par.pstate = .checksum ∧ e ≠ .error 0x11) ∧
      t.par.pstate = .waitingForStart) ∧
  ∀ (s t : State) (bs : List Byte) (rest : List HostAction), 0x7E ∉ bs → s.input = bs.map rxWrite ++ rest →
    runSteps bs.length s = .next t → ∃ evs, t.outputs = s.outputs ++ evs ∧ evs.length ≤ 1

/-- R198: from every state, the bytes of a well-formed frame give no event before the last one, and there exactly the
event its body dispatches to, and leave the parser idle, for both values of `ESC_REPEAT`. -/
def Obligations.ResyncOnEveryFrame : Prop :=
  ∀ (s : State) (body : List Byte) (rest : List HostAction), 1 ≤ body.length → body.length ≤ 256 →
    s.input = (wire body).map rxWrite ++ rest →
    (∀ k, k < (wire body).length → ∃ t, runSteps k s = .next t ∧ t.outputs = s.outputs) ∧
    ∃ t, runSteps (wire body).length s = .next t ∧ t.outputs = s.outputs ++ [.event (frameEvent body)] ∧
      t.par.pstate = .waitingForStart ∧ t.par.esc = false ∧ t.cmd = s.cmd ∧ t.cfg = s.cfg ∧ t.input = rest

/-! ## System group, host port, step -/

/-- R211: after SYS.RESET every piece of state with a reset value has it, and the byte buffers hold no value. -/
def Obligations.SysResetRestoresResetValues : Prop :=
  decode .cmd [0xE0] = .ok .sysReset ∧
  ∀ s : State, ∃ t, exec .sysReset s = .next t ∧
    t.par.pstate = .waitingForStart ∧ t.par.esc = false ∧ t.par.sum = 0 ∧ t.par.flen = 0 ∧ t.par.idx = 0 ∧
    t.cmd.nextFid = 1 ∧ t.cmd.cntCrcFail = 0 ∧ t.par.cntFrameErr = 0 ∧ t.cmd.iLen = 0 ∧ t.cmd.oLen = 0 ∧
    t.cmd.ok = false ∧ t.cmd.err = 0x00 ∧
    (∀ i, Memory.read t.cmd.ibuf i = none ∧ Memory.read t.cmd.obuf i = none ∧ Memory.read t.par.fbuf i = none) ∧
    t.outputs = s.outputs ∧ t.cfg = s.cfg ∧ t.input = s.input

/-- R212 and R250 in the model (log 1, log 15, log 17): the hardware reset and SYS.RESET have the same effect, the
state after reset; the parameters, the pending transactions and what the host was given stay. -/
def Obligations.HardwareResetIsSysReset : Prop :=
  ∀ (s : State) (rest : List HostAction), s.input = .hardReset :: rest →
    step s = exec .sysReset { s with input := rest } ∧
    step s = .next { State.reset with cfg := s.cfg, input := rest, outputs := s.outputs }

/-- 60_exceptions section 3 (the illegal command): a write to `CMD` of a value whose low byte is none of the 17 codes sets
`OK` to 0 and `ERR` to 0x01, and changes nothing else. For a value that does not fit `CMD`, that its low byte is what
`CMD` takes is the model's choice (log 10). -/
def Obligations.IllegalCommandIsVisibleAndHarmless : Prop :=
  ∀ (s : State) (v : BitVec 64) (rest : List HostAction), s.input = .write 0x00000 v :: rest →
    v.setWidth 8 ∉ ([0xC1, 0xC2, 0xC3, 0xF1, 0xF2, 0xF3, 0xF4, 0xF5, 0xF6, 0xF7, 0xF8, 0xF9, 0xA1, 0xA2, 0xA3, 0xA4,
      0xE0] : List Byte) →
    step s = .next { s with input := rest, cmd := { s.cmd with ok := false, err := 0x01 } }

/-- A step runs the decoded instruction: a write to `CMD` of a command code runs that command, a write to `RXDATA`
runs the parser step of that byte, each on the state with the transaction taken (R41, R42). For a value that does not
fit the 8-bit register, that its low byte is what the register takes is the model's choice (log 10). -/
def Obligations.StepRunsTheDecodedInstruction : Prop :=
  (∀ (s : State) (v : BitVec 64) (rest : List HostAction) (i : Instr), s.input = .write 0x00000 v :: rest →
    decode .cmd [v.setWidth 8] = .ok i → step s = exec i { s with input := rest }) ∧
  ∀ (s : State) (v : BitVec 64) (rest : List HostAction) (i : Instr), s.input = .write 0x00001 v :: rest →
    decode .rxByte [v.setWidth 8] = .ok i → step s = exec i { s with input := rest }

/-- A step runs the decoded frame or message (log 7, log 8): the right checksum byte of a received body runs the
frame the body decodes to; FRAG.PARSE of a message runs the message its bytes decode to. -/
def Obligations.StepRunsTheDecodedFrameOrMessage : Prop :=
  (∀ (s : State) (b : Byte) (rest : List HostAction) (f : List Byte) (i : Instr), s.input = rxWrite b :: rest →
    b ≠ 0x7E → b ≠ 0x7D → s.par.pstate = .checksum → ReceivedIs s.par f → s.par.flen.toNat = f.length →
    s.par.sum + (if s.par.esc = true then b ^^^ 0x20 else b) = 0xFF → decode .apiFrame f = .ok i →
    step s = exec i { s with
      input := rest, par := { s.par with pstate := .waitingForStart, esc := false, sum := 0xFF } }) ∧
  ∀ (s : State) (rest : List HostAction) (m : List Byte) (i : Instr), s.input = cmdWrite 0xF9 :: rest →
    InputIs s m → decode .fragMsg m = .ok i → step s = exec i { s with input := rest }

/-- 44_system section 3: a write of a read/write place stores the value at the place's width; every other place reads as
before, no command starts and nothing is output. For a value that does not fit the place, that its low bits are stored
is the model's choice (log 10). -/
def Obligations.WrittenRegistersReadBack : Prop :=
  ∀ (s : State) (a : HostAddr) (v : BitVec 64) (rest : List HostAction) (p : Place) (w : Nat),
    s.cfg.ok = true → s.input = .write a v :: rest → placeAt s.cfg a = some p → p.writableWidth = some w →
    (p = .iLen → v.toNat % 2 ^ 16 ≤ s.cfg.bufCap) →
    ∃ t, step s = .next t ∧ readPlace p t = .ok (BitVec.ofNat 64 (v.toNat % 2 ^ w)) ∧
      (∀ q, q ≠ p → readPlace q t = readPlace q s) ∧
      t.par = s.par ∧ t.cfg = s.cfg ∧ t.outputs = s.outputs ∧ t.input = rest

/-- R22 and R59 (the model takes the rules' words, log 11): a write to a read-only register, to `OBUF`, to an
unmapped address, or of `ILEN > BUF_CAP` has no effect. For a value that does not fit `ILEN`, that its low 16 bits are
the length is the model's choice (log 10). -/
def Obligations.ForbiddenWritesAreIgnored : Prop :=
  ∀ (s : State) (a : HostAddr) (v : BitVec 64) (rest : List HostAction), s.input = .write a v :: rest →
    (placeAt s.cfg a = none → step s = .next { s with input := rest }) ∧
    (∀ p, placeAt s.cfg a = some p → p ≠ .cmd → p ≠ .rxData → p.writableWidth = none →
      step s = .next { s with input := rest }) ∧
    (placeAt s.cfg a = some .iLen → s.cfg.bufCap < v.toNat % 2 ^ 16 → step s = .next { s with input := rest })

/-- 44_system section 3 and 20_memory section 4: a host read returns the value and changes no state of the block. Every
register is named with the state field it reads as, zero-extended; a written byte of `IBUF` or `OBUF` reads as that byte.
The model's choices: that a register can be read before anything wrote it, where the spec lets a model fault (log 1); that
a byte of `IBUF` or `OBUF` that holds no value faults (log 2, log 3); that a write-only register and an unmapped address
read as zero, where the spec lets a model refuse (log 11). `STATUS` has a statement of its own. -/
def Obligations.ReadsChangeNothing : Prop :=
  (∀ (s : State) (a : HostAddr) (rest : List HostAction), s.input = .read a :: rest →
    (∀ t, step s = .next t → ∃ v, t = { s with input := rest, outputs := s.outputs ++ [.readData a v] } ∧
      ∀ p, placeAt s.cfg a = some p → readPlace p s = .ok v) ∧
    (placeAt s.cfg a = none →
      step s = .next { s with input := rest, outputs := s.outputs ++ [.readData a 0] }) ∧
    (∀ p, placeAt s.cfg a = some p → (∀ i, p ≠ .ibuf i) → (∀ i, p ≠ .obuf i) →
      ∃ v, step s = .next { s with input := rest, outputs := s.outputs ++ [.readData a v] } ∧
        (p = .cmd ∨ p = .rxData → v = 0))) ∧
  ∀ s : State,
    ReadGives s 0x00002 (if s.cmd.ok = true then 1 else 0) ∧
    ReadGives s 0x00003 (BitVec.ofNat 64 s.cmd.err.toNat) ∧
    ReadGives s 0x00005 (BitVec.ofNat 64 s.cmd.nextFid.toNat) ∧
    ReadGives s 0x00008 (BitVec.ofNat 64 s.cmd.cntCrcFail) ∧
    ReadGives s 0x00010 (BitVec.ofNat 64 s.par.cntFrameErr) ∧
    ReadGives s 0x00020 (BitVec.ofNat 64 s.cmd.ver.toNat) ∧
    ReadGives s 0x00021 (BitVec.ofNat 64 s.cmd.type.toNat) ∧
    ReadGives s 0x00022 (BitVec.ofNat 64 s.cmd.msgId.toNat) ∧
    ReadGives s 0x00024 (BitVec.ofNat 64 s.cmd.totLen.toNat) ∧
    ReadGives s 0x00028 (BitVec.ofNat 64 s.cmd.fragIdx.toNat) ∧
    ReadGives s 0x0002A (BitVec.ofNat 64 s.cmd.fragCnt.toNat) ∧
    ReadGives s 0x0002C (BitVec.ofNat 64 s.cmd.payLen.toNat) ∧
    ReadGives s 0x0002D (BitVec.ofNat 64 s.cmd.nCnt.toNat) ∧
    ReadGives s 0x0002E (BitVec.ofNat 64 s.cmd.crc.toNat) ∧
    ReadGives s 0x00030 s.cmd.addr64 ∧
    ReadGives s 0x00038 (BitVec.ofNat 64 s.cmd.addr16.toNat) ∧
    ReadGives s 0x0003A (BitVec.ofNat 64 s.cmd.radius.toNat) ∧
    ReadGives s 0x0003B (BitVec.ofNat 64 s.cmd.txOpt.toNat) ∧
    ReadGives s 0x0003C (BitVec.ofNat 64 s.cmd.fid.toNat) ∧
    ReadGives s 0x0003E (BitVec.ofNat 64 s.cmd.atCode.toNat) ∧
    ReadGives s 0x00040 (BitVec.ofNat 64 s.cmd.iLen.toNat) ∧
    ReadGives s 0x00042 (BitVec.ofNat 64 s.cmd.oLen.toNat) ∧
    (∀ k, k < 255 →
      ReadGives s (BitVec.ofNat 18 (0x00200 + 2 * k)) (BitVec.ofNat 64 (IndexFile.read s.cmd.idxFile k).toNat)) ∧
    ∀ i, s.cfg.ok = true → i < s.cfg.bufCap →
      (∀ b, Memory.read s.cmd.ibuf i = some b →
        ReadGives s (BitVec.ofNat 18 (0x10000 + i)) (BitVec.ofNat 64 b.toNat)) ∧
      (∀ b, Memory.read s.cmd.obuf i = some b →
        ReadGives s (BitVec.ofNat 18 (0x20000 + i)) (BitVec.ofNat 64 b.toNat)) ∧
      (Memory.read s.cmd.ibuf i = none → ∀ rest,
        step { s with input := .read (BitVec.ofNat 18 (0x10000 + i)) :: rest } = .fault (.noValue .ibuf i)) ∧
      (Memory.read s.cmd.obuf i = none → ∀ rest,
        step { s with input := .read (BitVec.ofNat 18 (0x20000 + i)) :: rest } = .fault (.noValue .obuf i))

/-- R36 with R28's codes: in every state a read of `STATUS` outputs the code of `pstate` in bits 2:0, `esc` in bit 3 and
zero in bits 7:4 (and above, zero-extended), and has no side effect. -/
def Obligations.StatusShowsTheParser : Prop :=
  ∀ s : State, ∃ v : BitVec 64, ReadGives s 0x00004 v ∧
    v.extractLsb' 0 3 = (match s.par.pstate with
      | .waitingForStart => 0
      | .lengthMsb => 1
      | .lengthLsb => 2
      | .frameData => 3
      | .checksum => 4) ∧
    v.getLsbD 3 = s.par.esc ∧ v.toNat < 16

/-- R58: the address map, and that nothing else is mapped. -/
def Obligations.AddressMapIsTheTable : Prop :=
  ∀ cfg : Params, cfg.ok = true →
    (∀ e ∈ addressTable, placeAt cfg (BitVec.ofNat 18 e.1) = some e.2) ∧
    (∀ i, i < 255 → placeAt cfg (BitVec.ofNat 18 (0x00200 + 2 * i)) = some (.idx i)) ∧
    (∀ i, i < cfg.bufCap → placeAt cfg (BitVec.ofNat 18 (0x10000 + i)) = some (.ibuf i)) ∧
    (∀ i, i < cfg.bufCap → placeAt cfg (BitVec.ofNat 18 (0x20000 + i)) = some (.obuf i)) ∧
    ∀ (a : HostAddr) (p : Place), placeAt cfg a = some p →
      (a.toNat, p) ∈ addressTable ∨ (∃ i, i < 255 ∧ a.toNat = 0x00200 + 2 * i ∧ p = .idx i) ∨
      (∃ i, i < cfg.bufCap ∧ a.toNat = 0x10000 + i ∧ p = .ibuf i) ∨
      ∃ i, i < cfg.bufCap ∧ a.toNat = 0x20000 + i ∧ p = .obuf i

/-! ## Whole-machine rules -/

/-- R257, with 10_state section 1 (the agents share no writable state): a command other than SYS.RESET changes none of
the parser's state and what it does, faults included, does not depend on it; a parser step changes nothing the
command unit owns, nor depends on it. -/
def Obligations.AgentsDoNotDisturbEachOther : Prop :=
  (∀ (i : Instr) (s t : State), i.format = .cmd → i ≠ .sysReset → exec i s = .next t →
    t.par = s.par ∧ t.outputs = s.outputs ∧ t.cfg = s.cfg ∧ t.input = s.input) ∧
  (∀ (b : Byte) (s t : State), exec (decodeRx b) s = .next t → t.cmd = s.cmd ∧ t.cfg = s.cfg ∧ t.input = s.input) ∧
  (∀ (i : Instr) (s : State) (p : ParserUnit), i.format = .cmd → i ≠ .sysReset →
    (∀ t, exec i s = .next t → exec i { s with par := p } = .next { t with par := p }) ∧
    ∀ f, exec i s = .fault f → exec i { s with par := p } = .fault f) ∧
  ∀ (b : Byte) (s : State) (c : CommandUnit),
    (∀ t, exec (decodeRx b) s = .next t → exec (decodeRx b) { s with cmd := c } = .next { t with cmd := c }) ∧
    ∀ f, exec (decodeRx b) s = .fault f → exec (decodeRx b) { s with cmd := c } = .fault f

/-- R222 and R223: after every command but SYS.RESET, `OK` and `ERR` describe that command. It succeeded, `ERR` is 0x00
and no counter moved; or it failed with a code 0x02 to 0x08, and nothing changed but `OK`, `ERR`, and only on `E_CRC`
of the four parse commands `CNT_CRC_FAIL`. -/
def Obligations.CommandsReportTheirOutcome : Prop :=
  ∀ (i : Instr) (s t : State), i.format = .cmd → i ≠ .sysReset → exec i s = .next t →
    (t.cmd.ok = true ∧ t.cmd.err = 0x00 ∧ t.cmd.cntCrcFail = s.cmd.cntCrcFail) ∨
    ∃ e : Byte, 0x02 ≤ e.toNat ∧ e.toNat ≤ 0x08 ∧
      t = if countsCrcFailure i = true ∧ e = 0x03 then s.crcDropped else s.failed e

/-- 10_state section 2 (the table of what each command writes): a register not listed for a command keeps its value, and
so does an entry of `IDX` from the count of FRAG.PARSE_NACK on; no command writes `IBUF` or `ILEN`. -/
def Obligations.CommandsWriteOnlyTheirRegisters : Prop :=
  (∀ s t, exec .crcCompute s = .next t →
    t = { s with cmd := { s.cmd with crc := t.cmd.crc, ok := t.cmd.ok, err := t.cmd.err } }) ∧
  (∀ s t, exec .crcVerify s = .next t → t = { s with cmd := { s.cmd with ok := t.cmd.ok, err := t.cmd.err } }) ∧
  (∀ i s t, i = .crcAppend ∨ i = .fragEncData ∨ i = .fragBuildNack ∨ i = .fragBuildDone → exec i s = .next t →
    t = { s with cmd := { s.cmd with
      crc := t.cmd.crc, obuf := t.cmd.obuf, oLen := t.cmd.oLen, ok := t.cmd.ok, err := t.cmd.err } }) ∧
  (∀ i s t, i = .fragEncHdr ∨ i = .apiBuildTx ∨ i = .apiBuildAt → exec i s = .next t →
    t = { s with cmd := { s.cmd with
      obuf := t.cmd.obuf, oLen := t.cmd.oLen, ok := t.cmd.ok, err := t.cmd.err } }) ∧
  (∀ i s t, i = .apiBuildTxAuto ∨ i = .apiBuildAtAuto → exec i s = .next t →
    t = { s with cmd := { s.cmd with
      obuf := t.cmd.obuf, oLen := t.cmd.oLen, ok := t.cmd.ok, err := t.cmd.err,
      fid := if s.cmd.fid = 0 then t.cmd.fid else s.cmd.fid,
      nextFid := if s.cmd.fid = 0 then t.cmd.nextFid else s.cmd.nextFid } }) ∧
  (∀ s t, exec .fragDecHdr s = .next t →
    t = { s with cmd := { s.cmd with
      ver := t.cmd.ver, type := t.cmd.type, msgId := t.cmd.msgId, totLen := t.cmd.totLen, fragIdx := t.cmd.fragIdx,
      fragCnt := t.cmd.fragCnt, payLen := t.cmd.payLen, ok := t.cmd.ok, err := t.cmd.err } }) ∧
  (∀ s t, exec .fragParseData s = .next t →
    t = { s with cmd := { s.cmd with
      ver := t.cmd.ver, type := t.cmd.type, msgId := t.cmd.msgId, totLen := t.cmd.totLen, fragIdx := t.cmd.fragIdx,
      fragCnt := t.cmd.fragCnt, payLen := t.cmd.payLen, crc := t.cmd.crc, obuf := t.cmd.obuf, oLen := t.cmd.oLen,
      ok := t.cmd.ok, err := t.cmd.err, cntCrcFail := t.cmd.cntCrcFail } }) ∧
  (∀ s t, exec .fragParseNack s = .next t →
    (∀ k, t.cmd.nCnt.toNat ≤ k → IndexFile.read t.cmd.idxFile k = IndexFile.read s.cmd.idxFile k) ∧
    t = { s with cmd := { s.cmd with
      ver := t.cmd.ver, type := t.cmd.type, msgId := t.cmd.msgId, nCnt := t.cmd.nCnt, idxFile := t.cmd.idxFile,
      crc := t.cmd.crc, ok := t.cmd.ok, err := t.cmd.err, cntCrcFail := t.cmd.cntCrcFail } }) ∧
  ∀ s t, exec .fragParseDone s = .next t →
    t = { s with cmd := { s.cmd with
      ver := t.cmd.ver, type := t.cmd.type, msgId := t.cmd.msgId, crc := t.cmd.crc, ok := t.cmd.ok,
      err := t.cmd.err, cntCrcFail := t.cmd.cntCrcFail } }

/-- 60_exceptions section 9: which failure moves which counter, modulo 2^`CNT_W`; and over every step of the machine, that a counter only
stays, counts one up, or is cleared by a reset. For a value that does not fit `CMD`, that its low byte is the code is the
model's choice (log 10). -/
def Obligations.CountersCountTheirFailures : Prop :=
  (∀ (i : Instr) (s t : State), i.format = .cmd → i ≠ .sysReset → exec i s = .next t →
    t.par.cntFrameErr = s.par.cntFrameErr ∧
    t.cmd.cntCrcFail = if countsCrcFailure i = true ∧ t.cmd.err = 0x03 then (s.cmd.cntCrcFail + 1) % 2 ^ s.cfg.cntW
      else s.cmd.cntCrcFail) ∧
  (∀ (s : State) (v : BitVec 64) (rest : List HostAction) (t : State), s.input = .write 0x00000 v :: rest →
    decode .cmd [v.setWidth 8] = .error .illegalCommand → step s = .next t →
    t.cmd.cntCrcFail = s.cmd.cntCrcFail ∧ t.par.cntFrameErr = s.par.cntFrameErr) ∧
  (∀ (b : Byte) (s t : State), exec (decodeRx b) s = .next t →
    t.cmd.cntCrcFail = s.cmd.cntCrcFail ∧
    ((∃ c, t.outputs = s.outputs ++ [.event (.error c)] ∧
        t.par.cntFrameErr = (s.par.cntFrameErr + 1) % 2 ^ s.cfg.cntW) ∨
      (t.par.cntFrameErr = s.par.cntFrameErr ∧
        (t.outputs = s.outputs ∨ ∃ e, t.outputs = s.outputs ++ [.event e] ∧ e.isError = false)))) ∧
  ∀ s t : State, step s = .next t →
    (t.cmd.cntCrcFail = s.cmd.cntCrcFail ∨ t.cmd.cntCrcFail = (s.cmd.cntCrcFail + 1) % 2 ^ s.cfg.cntW) ∧
      (t.par.cntFrameErr = s.par.cntFrameErr ∨ t.par.cntFrameErr = (s.par.cntFrameErr + 1) % 2 ^ s.cfg.cntW) ∨
    t.cmd.cntCrcFail = 0 ∧ t.par.cntFrameErr = 0 ∧
      ∃ rest, s.input = .hardReset :: rest ∨ ∃ v, s.input = .write 0x00000 v :: rest ∧ v.setWidth 8 = (0xE0 : Byte)

/-- R243 in the model: from every state of the invariant a step answers a next state, but for the fault of reading an
`IBUF` or `OBUF` byte that holds no value (log 2, log 3); it is never refused and never out of range. -/
def Obligations.BlockNeverStops : Prop :=
  ∀ s : State, s.inv = true →
    (∃ t, step s = .next t) ∨ ∃ i, step s = .fault (.noValue .ibuf i) ∨ step s = .fault (.noValue .obuf i)

/-- The invariant of the block (R37, R38, R39, R48, U4, and the canonical form of the memories) is kept by every step
of the machine, whatever the host does. -/
def Obligations.EveryStepKeepsTheInvariant : Prop :=
  ∀ s t : State, s.inv = true → step s = .next t → t.inv = true

/-- The invariant holds at reset, and after any reset of a machine whose parameters are in range. -/
def Obligations.ResetStateIsInvariant : Prop :=
  State.reset.inv = true ∧ ∀ s : State, s.cfg.ok = true → (resetBlock s).inv = true

/-! ## Encoding -/

/-- Decode and encode agree: every well-formed instruction, with every operand at every value its encoding admits,
decodes from its own encoding. -/
def Obligations.DecodeOfEncodeIsTheInstruction : Prop :=
  ∀ i : Instr, i.wellFormed = true → decode i.format (encode i) = .ok i

/-- The other direction: whatever a format's decoder accepts is that instruction's encoding, byte for byte; only a
Transmit Status drops the bytes after its seventh (R187). -/
def Obligations.EncodeOfDecodeIsTheBytes : Prop :=
  ∀ (f : Format) (bytes : List Byte) (i : Instr), decode f bytes = .ok i →
    i.format = f ∧ encode i = (if f = .apiFrame ∧ byteAt bytes 0 = 0x8B then bytes.take 7 else bytes)

/-- A few words written out from the layouts of 30_encoding: what each decodes to. -/
def Obligations.WordsOfTheTableDecode : Prop :=
  decode .cmd [0xC1] = .ok .crcCompute ∧ decode .cmd [0xF3] = .ok .fragBuildNack ∧
  decode .cmd [0xA2] = .ok .apiBuildTxAuto ∧ decode .cmd [0xE0] = .ok .sysReset ∧
  decode .cmd [0x00] = .error .illegalCommand ∧
  decode .apiFrame [0x08, 0x01, 0x53, 0x48] = .ok (.frameAtCommand 0x01 0x5348 []) ∧
  decode .apiFrame [0x8B, 0x01, 0xFF, 0xFE, 0x00, 0x02, 0x03] = .ok (.frameTxStatus 0x01 0xFFFE 0x00 0x02 0x03) ∧
  decode .fragMsg [0x01, 0x02, 0x00, 0x01, 0x01, 0x00, 0x01, 0x93, 0x4A] = .ok (.msgNack 0x0001 [0x0001] 0x934A) ∧
  decode .fragMsg [0x01, 0x03, 0x00, 0x01, 0xBB, 0x05] = .ok (.msgDone 0x0001 0xBB05) ∧
  decode .rxByte [0x7E] = .ok .rxStart ∧ decode .rxByte [0x7D] = .ok .rxEscape ∧
  decode .rxByte [0x11] = .ok (.rxByte 0x11)
end

