-- ==== Sys2Proof/Laws/Bytes.lean ====
section
/-! SUPPORT. Laws of byte strings: the fields that `be16`, `be32` and `be64` write are what `get16`, `get32` and
`get64` read back, wherever they stand. -/

namespace Sys2Proof.Machine

/-- The two bytes of a 16-bit value make it up again. -/
theorem be16_join (v : Half) : (v.extractLsb' 8 8 ++ v.extractLsb' 0 8 : Half) = v := by
  apply BitVec.eq_of_getLsbD_eq
  intro i hi
  rw [BitVec.getLsbD_append]
  split
  · rename_i h; simp [h]
  · rename_i h; simp [show i - 8 < 8 by omega, show 8 + (i - 8) = i by omega]

/-- A byte of the second part. -/
theorem byteAt_append_right (s t : List Byte) (i : Nat) : byteAt (s ++ t) (s.length + i) = byteAt t i := by
  simp [byteAt, List.getD_eq_getElem?_getD, List.getElem?_append]

/-- A byte of the first part. -/
theorem byteAt_append_left {s : List Byte} (t : List Byte) {i : Nat} (h : i < s.length) :
    byteAt (s ++ t) i = byteAt s i := by
  simp [byteAt, List.getD_eq_getElem?_getD, List.getElem?_append, h]

/-- A written 16-bit field reads back. -/
theorem get16_be16 (s t : List Byte) (v : Half) : get16 (s ++ be16 v ++ t) s.length = v := by
  have h0 : byteAt (s ++ be16 v ++ t) s.length = v.extractLsb' 8 8 := by
    rw [List.append_assoc]; exact byteAt_append_right s (be16 v ++ t) 0
  have h1 : byteAt (s ++ be16 v ++ t) (s.length + 1) = v.extractLsb' 0 8 := by
    rw [List.append_assoc]; exact byteAt_append_right s (be16 v ++ t) 1
  unfold get16
  rw [h0, h1, be16_join]

/-- The halves of a 32-bit value make it up again. -/
theorem be32_join (v : BitVec 32) : (v.extractLsb' 16 16 ++ v.extractLsb' 0 16 : BitVec 32) = v := by
  apply BitVec.eq_of_getLsbD_eq
  intro i hi
  rw [BitVec.getLsbD_append]
  split
  · rename_i h; simp [h]
  · rename_i h; simp [show i - 16 < 16 by omega, show 16 + (i - 16) = i by omega]

/-- The halves of a 64-bit value make it up again. -/
theorem be64_join (v : BitVec 64) : (v.extractLsb' 32 32 ++ v.extractLsb' 0 32 : BitVec 64) = v := by
  apply BitVec.eq_of_getLsbD_eq
  intro i hi
  rw [BitVec.getLsbD_append]
  split
  · rename_i h; simp [h]
  · rename_i h; simp [show i - 32 < 32 by omega, show 32 + (i - 32) = i by omega]

@[simp] theorem length_be16 (v : Half) : (be16 v).length = 2 := rfl
@[simp] theorem length_be32 (v : BitVec 32) : (be32 v).length = 4 := rfl
@[simp] theorem length_be64 (v : BitVec 64) : (be64 v).length = 8 := rfl

/-- A written 32-bit field reads back. -/
theorem get32_be32 (s t : List Byte) (v : BitVec 32) : get32 (s ++ be32 v ++ t) s.length = v := by
  have h0 := get16_be16 s (be16 (v.extractLsb' 0 16) ++ t) (v.extractLsb' 16 16)
  have h1 := get16_be16 (s ++ be16 (v.extractLsb' 16 16)) t (v.extractLsb' 0 16)
  simp only [List.length_append, length_be16, List.append_assoc] at h0 h1
  unfold get32 be32
  simp only [List.append_assoc]
  rw [h0, h1, be32_join]

/-- A written 64-bit field reads back. -/
theorem get64_be64 (s t : List Byte) (v : BitVec 64) : get64 (s ++ be64 v ++ t) s.length = v := by
  have h0 := get32_be32 s (be32 (v.extractLsb' 0 32) ++ t) (v.extractLsb' 32 32)
  have h1 := get32_be32 (s ++ be32 (v.extractLsb' 32 32)) t (v.extractLsb' 0 32)
  simp only [List.length_append, length_be32, List.append_assoc] at h0 h1
  unfold get64 be64
  simp only [List.append_assoc]
  rw [h0, h1, be64_join]

@[simp] theorem length_crcAppend (s : List Byte) : (crcAppend s).length = s.length + 2 := by simp [crcAppend]

/-- The CRC field of an appended string. -/
theorem get16_crcAppend (s : List Byte) : get16 (crcAppend s) s.length = crc16 s := by
  have h := get16_be16 s [] (crc16 s)
  rwa [List.append_nil] at h

end Sys2Proof.Machine
end

