-- ==== Sys2Proof/Laws/Memory.lean ====
section
/-! SUPPORT. The laws of the byte spaces and of the index file: read after write, writes leave every other place
alone, and every operation keeps the canonical form. -/

namespace Sys2Proof.Machine

/-! ## Byte spaces -/

@[simp] theorem Memory.read_nil (a : Nat) : Memory.read [] a = none := rfl

theorem Memory.read_write_same (m : Memory) (a : Nat) (v : Byte) :
    Memory.read (Memory.write a v m) a = some v := by
  induction m with
  | nil => simp [Memory.write, Memory.read]
  | cons c t ih =>
    obtain ⟨b, w⟩ := c
    unfold Memory.write
    split
    · simp [Memory.read]
    · split
      · simp [Memory.read]
      · rename_i _ hne
        simp [Memory.read, hne, ih]

theorem Memory.read_write_other (m : Memory) {a c : Nat} (v : Byte) (h : c ≠ a) :
    Memory.read (Memory.write a v m) c = Memory.read m c := by
  induction m with
  | nil => simp [Memory.write, Memory.read, h]
  | cons p t ih =>
    obtain ⟨b, w⟩ := p
    unfold Memory.write
    split
    · simp [Memory.read, h]
    · split
      · rename_i _ hab
        subst hab
        simp [Memory.read, h]
      · simp [Memory.read, ih]

theorem Memory.read_write (m : Memory) (a c : Nat) (v : Byte) :
    Memory.read (Memory.write a v m) c = if c = a then some v else Memory.read m c := by
  split
  · subst c; exact Memory.read_write_same m a v
  · rename_i h; exact Memory.read_write_other m v h

/-- A space written from a byte string lists exactly that string. -/
theorem Memory.read_ofBytes (s : List Byte) (a i : Nat) :
    Memory.read (Memory.ofBytes a s) i = if i < a then none else s[i - a]? := by
  induction s generalizing a with
  | nil => simp [Memory.ofBytes]
  | cons b t ih =>
    simp only [Memory.ofBytes, Memory.read, ih]
    by_cases h : i = a
    · subst h; simp
    · rcases Nat.lt_or_ge i a with hlt | hge
      · simp [h, hlt, Nat.lt_succ_of_lt hlt]
      · have h1 : ¬ i < a := by omega
        have h2 : ¬ i < a + 1 := by omega
        obtain ⟨k, hk⟩ : ∃ k, i - a = k + 1 := ⟨i - a - 1, by omega⟩
        have h3 : i - (a + 1) = k := by omega
        simp [h, h1, h2, hk, h3]

@[simp] theorem Memory.read_ofBytes_zero (s : List Byte) (i : Nat) :
    Memory.read (Memory.ofBytes 0 s) i = s[i]? := by simp [Memory.read_ofBytes]

@[simp] theorem Memory.length_ofBytes (s : List Byte) (a : Nat) : (Memory.ofBytes a s).length = s.length := by
  induction s generalizing a with
  | nil => rfl
  | cons b t ih => simp [Memory.ofBytes, ih]

/-- What a read of `n` bytes answers: the string that stands there, all of it written. -/
theorem readBytes_ok_iff (sp : Space) (m : Memory) (a n : Nat) (s : List Byte) :
    readBytes sp m a n = .ok s ↔ s.length = n ∧ ∀ i, i < n → Memory.read m (a + i) = s[i]? := by
  induction n generalizing a s with
  | zero =>
    simp only [readBytes, Except.ok.injEq]
    exact ⟨fun h => ⟨by simp [← h], fun i hi => absurd hi (Nat.not_lt_zero i)⟩,
      fun h => (List.eq_nil_of_length_eq_zero h.1).symm⟩
  | succ n ih =>
    unfold readBytes
    cases hr : Memory.read m a with
    | none =>
      simp only [reduceCtorEq, false_iff, not_and]
      intro hl h
      have h0 := h 0 (by omega)
      rw [Nat.add_zero, hr] at h0
      have : s ≠ [] := by intro hs; simp [hs] at hl
      cases s with
      | nil => exact this rfl
      | cons b t => simp at h0
    | some b =>
      cases hb : readBytes sp m (a + 1) n with
      | error f =>
        simp only [reduceCtorEq, false_iff, not_and]
        intro hl h
        cases s with
        | nil => simp at hl
        | cons c t =>
          have ht : readBytes sp m (a + 1) n = .ok t := by
            rw [ih]
            refine ⟨by simpa using hl, fun i hi => ?_⟩
            have := h (i + 1) (by omega)
            rw [show a + (i + 1) = a + 1 + i by omega] at this
            simpa using this
          rw [hb] at ht
          cases ht
      | ok t =>
        have ht := (ih (a + 1) t).1 hb
        simp only [Except.ok.injEq]
        constructor
        · rintro rfl
          refine ⟨by simp [ht.1], fun i hi => ?_⟩
          cases i with
          | zero => simp [hr]
          | succ i =>
            have := ht.2 i (by omega)
            rw [show a + (i + 1) = a + 1 + i by omega]
            simpa using this
        · rintro ⟨hl, h⟩
          cases s with
          | nil => simp at hl
          | cons c u =>
            have hu : readBytes sp m (a + 1) n = .ok u := by
              rw [ih]
              refine ⟨by simpa using hl, fun i hi => ?_⟩
              have := h (i + 1) (by omega)
              rw [show a + (i + 1) = a + 1 + i by omega] at this
              simpa using this
            have h0 := h 0 (by omega)
            rw [Nat.add_zero, hr] at h0
            rw [hb] at hu
            cases hu
            simp at h0
            rw [h0]

theorem Memory.rising_mono {lo lo' cap : Nat} (m : Memory) (h : lo' ≤ lo) (hm : Memory.rising lo cap m = true) :
    Memory.rising lo' cap m = true := by
  cases m with
  | nil => rfl
  | cons c t =>
    obtain ⟨b, w⟩ := c
    simp only [Memory.rising, Bool.and_eq_true, decide_eq_true_eq] at hm ⊢
    exact ⟨⟨by omega, hm.1.2⟩, hm.2⟩

theorem Memory.rising_write {lo cap a : Nat} (v : Byte) (m : Memory) (hlo : lo ≤ a) (ha : a < cap)
    (hm : Memory.rising lo cap m = true) : Memory.rising lo cap (Memory.write a v m) = true := by
  induction m generalizing lo with
  | nil => simp [Memory.write, Memory.rising, hlo, ha]
  | cons c t ih =>
    obtain ⟨b, w⟩ := c
    simp only [Memory.rising, Bool.and_eq_true, decide_eq_true_eq] at hm
    unfold Memory.write
    split
    · rename_i hab
      simp only [Memory.rising, Bool.and_eq_true, decide_eq_true_eq]
      exact ⟨⟨hlo, ha⟩, ⟨by omega, hm.1.2⟩, hm.2⟩
    · split
      · rename_i _ hab
        subst hab
        simp only [Memory.rising, Bool.and_eq_true, decide_eq_true_eq]
        exact ⟨⟨hlo, ha⟩, hm.2⟩
      · simp only [Memory.rising, Bool.and_eq_true, decide_eq_true_eq]
        exact ⟨hm.1, ih (by omega) hm.2⟩

/-- A write within the space keeps its canonical form. -/
theorem Memory.wf_write {cap a : Nat} (v : Byte) (m : Memory) (ha : a < cap) (hm : Memory.wf cap m = true) :
    Memory.wf cap (Memory.write a v m) = true := Memory.rising_write v m (Nat.zero_le a) ha hm

theorem Memory.rising_ofBytes (s : List Byte) (a cap : Nat) (h : a + s.length ≤ cap) :
    Memory.rising a cap (Memory.ofBytes a s) = true := by
  induction s generalizing a with
  | nil => rfl
  | cons b t ih =>
    simp only [List.length_cons] at h
    simp only [Memory.ofBytes, Memory.rising, Bool.and_eq_true, decide_eq_true_eq]
    exact ⟨⟨by omega, by omega⟩, ih (a + 1) (by omega)⟩

/-- A space written from a string that fits has the canonical form. -/
theorem Memory.wf_ofBytes (s : List Byte) (cap : Nat) (h : s.length ≤ cap) :
    Memory.wf cap (Memory.ofBytes 0 s) = true := Memory.rising_ofBytes s 0 cap (by omega)

/-! ## The index file -/

theorem IndexFile.read_erase (f : IndexFile) (k j : Nat) :
    IndexFile.read (IndexFile.erase k f) j = if j = k then 0 else IndexFile.read f j := by
  induction f with
  | nil => simp [IndexFile.erase, IndexFile.read]
  | cons c t ih =>
    obtain ⟨i, v⟩ := c
    unfold IndexFile.erase
    split
    · rename_i h
      subst h
      rw [ih]
      split
      · rfl
      · rename_i h; simp [IndexFile.read, h]
    · rename_i h
      simp only [IndexFile.read, ih]
      by_cases hj : j = i
      · have : ¬ j = k := by rw [hj]; exact fun e => h e.symm
        simp only [hj, if_true]
        rw [if_neg fun e => h e.symm]
      · simp [hj]

theorem IndexFile.read_insert (f : IndexFile) (k j : Nat) (v : Half) :
    IndexFile.read (IndexFile.insert k v f) j = if j = k then v else IndexFile.read f j := by
  induction f with
  | nil => simp [IndexFile.insert, IndexFile.read]
  | cons c t ih =>
    obtain ⟨i, w⟩ := c
    unfold IndexFile.insert
    split
    · simp [IndexFile.read]
    · split
      · rename_i _ h
        subst h
        simp only [IndexFile.read]
        split <;> rfl
      · rename_i _ h
        simp only [IndexFile.read, ih]
        by_cases hj : j = i
        · simp [hj, Ne.symm h]
        · simp [hj]

/-- Read after write, and every other entry keeps its value. -/
theorem IndexFile.read_write (f : IndexFile) (k j : Nat) (v : Half) :
    IndexFile.read (IndexFile.write k v f) j = if j = k then v else IndexFile.read f j := by
  unfold IndexFile.write
  split
  · rename_i h; rw [IndexFile.read_erase, h]
  · exact IndexFile.read_insert f k j v

/-- A list written from `k` on stands there, and every other entry keeps its value. -/
theorem IndexFile.read_writeAll (vs : List Half) (f : IndexFile) (k j : Nat) :
    IndexFile.read (IndexFile.writeAll k vs f) j =
      if k ≤ j ∧ j < k + vs.length then vs.getD (j - k) 0 else IndexFile.read f j := by
  induction vs generalizing k f with
  | nil =>
    rw [if_neg (by simp)]
    rfl
  | cons v t ih =>
    simp only [IndexFile.writeAll, ih, IndexFile.read_write, List.length_cons]
    by_cases h : j = k
    · subst h
      rw [if_neg (by omega), if_pos rfl, if_pos (by omega)]
      simp
    · by_cases h1 : k + 1 ≤ j ∧ j < k + 1 + t.length
      · obtain ⟨n, hn⟩ : ∃ n, j - k = n + 1 := ⟨j - k - 1, by omega⟩
        have h2 : k ≤ j ∧ j < k + (t.length + 1) := by omega
        have h3 : j - (k + 1) = n := by omega
        rw [if_pos h1, if_pos h2, hn, h3]
        rfl
      · have h2 : ¬ (k ≤ j ∧ j < k + (t.length + 1)) := by omega
        rw [if_neg h1, if_neg h, if_neg h2]

@[simp] theorem IndexFile.length_take (f : IndexFile) (k n : Nat) : (IndexFile.take f k n).length = n := by
  induction n generalizing k with
  | zero => rfl
  | succ n ih => simp [IndexFile.take, ih]

theorem IndexFile.rising_mono {lo lo' : Nat} (f : IndexFile) (h : lo' ≤ lo) (hf : IndexFile.rising lo f = true) :
    IndexFile.rising lo' f = true := by
  cases f with
  | nil => rfl
  | cons c t =>
    obtain ⟨b, w⟩ := c
    simp only [IndexFile.rising, Bool.and_eq_true, decide_eq_true_eq] at hf ⊢
    exact ⟨⟨⟨by omega, hf.1.1.2⟩, hf.1.2⟩, hf.2⟩

theorem IndexFile.rising_erase {lo : Nat} (k : Nat) (f : IndexFile) (hf : IndexFile.rising lo f = true) :
    IndexFile.rising lo (IndexFile.erase k f) = true := by
  induction f generalizing lo with
  | nil => rfl
  | cons c t ih =>
    obtain ⟨b, w⟩ := c
    simp only [IndexFile.rising, Bool.and_eq_true, decide_eq_true_eq] at hf
    unfold IndexFile.erase
    split
    · exact IndexFile.rising_mono _ (by omega) (ih hf.2)
    · simp only [IndexFile.rising, Bool.and_eq_true, decide_eq_true_eq]
      exact ⟨hf.1, ih hf.2⟩

theorem IndexFile.rising_insert {lo k : Nat} (v : Half) (f : IndexFile) (hlo : lo ≤ k) (hk : k < Config.idxCap)
    (hv : v ≠ 0) (hf : IndexFile.rising lo f = true) : IndexFile.rising lo (IndexFile.insert k v f) = true := by
  induction f generalizing lo with
  | nil =>
    simp only [IndexFile.insert, IndexFile.rising, Bool.and_eq_true, decide_eq_true_eq, bne_iff_ne]
    exact ⟨⟨⟨hlo, hk⟩, hv⟩, trivial⟩
  | cons c t ih =>
    obtain ⟨b, w⟩ := c
    simp only [IndexFile.rising, Bool.and_eq_true, decide_eq_true_eq, bne_iff_ne] at hf
    unfold IndexFile.insert
    split
    · simp only [IndexFile.rising, Bool.and_eq_true, decide_eq_true_eq, bne_iff_ne]
      exact ⟨⟨⟨hlo, hk⟩, hv⟩, ⟨⟨by omega, hf.1.1.2⟩, hf.1.2⟩, hf.2⟩
    · split
      · rename_i _ h
        subst h
        simp only [IndexFile.rising, Bool.and_eq_true, decide_eq_true_eq, bne_iff_ne]
        exact ⟨⟨⟨hlo, hk⟩, hv⟩, hf.2⟩
      · simp only [IndexFile.rising, Bool.and_eq_true, decide_eq_true_eq, bne_iff_ne]
        exact ⟨hf.1, ih (by omega) hf.2⟩

/-- A write of an existing entry keeps the canonical form. -/
theorem IndexFile.wf_write {k : Nat} (v : Half) (f : IndexFile) (hk : k < Config.idxCap) (hf : IndexFile.wf f = true) :
    IndexFile.wf (IndexFile.write k v f) = true := by
  unfold IndexFile.write
  split
  · exact IndexFile.rising_erase k f hf
  · rename_i h; exact IndexFile.rising_insert v f (Nat.zero_le k) hk h hf

theorem IndexFile.wf_writeAll (vs : List Half) (f : IndexFile) (k : Nat) (h : k + vs.length ≤ Config.idxCap)
    (hf : IndexFile.wf f = true) : IndexFile.wf (IndexFile.writeAll k vs f) = true := by
  induction vs generalizing k f with
  | nil => exact hf
  | cons v t ih =>
    simp only [List.length_cons] at h
    exact ih _ (k + 1) (by omega) (IndexFile.wf_write v f (by omega) hf)

/-! ## Reset -/

/-- The buffers and the index file at reset have the canonical form. -/
theorem reset_memories_wf :
    Memory.wf State.reset.cfg.bufCap State.reset.cmd.ibuf = true ∧
    Memory.wf State.reset.cfg.bufCap State.reset.cmd.obuf = true ∧
    Memory.wf Config.fbufCap State.reset.par.fbuf = true ∧ IndexFile.wf State.reset.cmd.idxFile = true :=
  ⟨rfl, rfl, rfl, rfl⟩

end Sys2Proof.Machine
end

