-- ==== Sys2Proof/Laws/State.lean ====
section
/-! SUPPORT. One lemma per field for each named update of the state, so that no later proof unfolds a record
update. -/

namespace Sys2Proof.Machine

/-! ### `setOutput` -/

@[simp] theorem setOutput_cfg (o : List Byte) (s : State) : (setOutput o s).cfg = s.cfg := rfl
@[simp] theorem setOutput_par (o : List Byte) (s : State) : (setOutput o s).par = s.par := rfl
@[simp] theorem setOutput_input (o : List Byte) (s : State) : (setOutput o s).input = s.input := rfl
@[simp] theorem setOutput_outputs (o : List Byte) (s : State) : (setOutput o s).outputs = s.outputs := rfl
@[simp] theorem setOutput_cmd_ver (o : List Byte) (s : State) : (setOutput o s).cmd.ver = s.cmd.ver := rfl
@[simp] theorem setOutput_cmd_type (o : List Byte) (s : State) : (setOutput o s).cmd.type = s.cmd.type := rfl
@[simp] theorem setOutput_cmd_msgId (o : List Byte) (s : State) : (setOutput o s).cmd.msgId = s.cmd.msgId := rfl
@[simp] theorem setOutput_cmd_totLen (o : List Byte) (s : State) : (setOutput o s).cmd.totLen = s.cmd.totLen := rfl
@[simp] theorem setOutput_cmd_fragIdx (o : List Byte) (s : State) : (setOutput o s).cmd.fragIdx = s.cmd.fragIdx := rfl
@[simp] theorem setOutput_cmd_fragCnt (o : List Byte) (s : State) : (setOutput o s).cmd.fragCnt = s.cmd.fragCnt := rfl
@[simp] theorem setOutput_cmd_payLen (o : List Byte) (s : State) : (setOutput o s).cmd.payLen = s.cmd.payLen := rfl
@[simp] theorem setOutput_cmd_nCnt (o : List Byte) (s : State) : (setOutput o s).cmd.nCnt = s.cmd.nCnt := rfl
@[simp] theorem setOutput_cmd_crc (o : List Byte) (s : State) : (setOutput o s).cmd.crc = s.cmd.crc := rfl
@[simp] theorem setOutput_cmd_fid (o : List Byte) (s : State) : (setOutput o s).cmd.fid = s.cmd.fid := rfl
@[simp] theorem setOutput_cmd_addr64 (o : List Byte) (s : State) : (setOutput o s).cmd.addr64 = s.cmd.addr64 := rfl
@[simp] theorem setOutput_cmd_addr16 (o : List Byte) (s : State) : (setOutput o s).cmd.addr16 = s.cmd.addr16 := rfl
@[simp] theorem setOutput_cmd_radius (o : List Byte) (s : State) : (setOutput o s).cmd.radius = s.cmd.radius := rfl
@[simp] theorem setOutput_cmd_txOpt (o : List Byte) (s : State) : (setOutput o s).cmd.txOpt = s.cmd.txOpt := rfl
@[simp] theorem setOutput_cmd_atCode (o : List Byte) (s : State) : (setOutput o s).cmd.atCode = s.cmd.atCode := rfl
@[simp] theorem setOutput_cmd_iLen (o : List Byte) (s : State) : (setOutput o s).cmd.iLen = s.cmd.iLen := rfl
@[simp] theorem setOutput_cmd_oLen (o : List Byte) (s : State) : (setOutput o s).cmd.oLen = BitVec.ofNat 16 o.length := rfl
@[simp] theorem setOutput_cmd_ok (o : List Byte) (s : State) : (setOutput o s).cmd.ok = s.cmd.ok := rfl
@[simp] theorem setOutput_cmd_err (o : List Byte) (s : State) : (setOutput o s).cmd.err = s.cmd.err := rfl
@[simp] theorem setOutput_cmd_idxFile (o : List Byte) (s : State) : (setOutput o s).cmd.idxFile = s.cmd.idxFile := rfl
@[simp] theorem setOutput_cmd_ibuf (o : List Byte) (s : State) : (setOutput o s).cmd.ibuf = s.cmd.ibuf := rfl
@[simp] theorem setOutput_cmd_obuf (o : List Byte) (s : State) : (setOutput o s).cmd.obuf = Memory.ofBytes 0 o := rfl
@[simp] theorem setOutput_cmd_nextFid (o : List Byte) (s : State) : (setOutput o s).cmd.nextFid = s.cmd.nextFid := rfl
@[simp] theorem setOutput_cmd_cntCrcFail (o : List Byte) (s : State) : (setOutput o s).cmd.cntCrcFail = s.cmd.cntCrcFail := rfl

/-! ### `setCrc` -/

@[simp] theorem setCrc_cfg (v : Half) (s : State) : (setCrc v s).cfg = s.cfg := rfl
@[simp] theorem setCrc_par (v : Half) (s : State) : (setCrc v s).par = s.par := rfl
@[simp] theorem setCrc_input (v : Half) (s : State) : (setCrc v s).input = s.input := rfl
@[simp] theorem setCrc_outputs (v : Half) (s : State) : (setCrc v s).outputs = s.outputs := rfl
@[simp] theorem setCrc_cmd_ver (v : Half) (s : State) : (setCrc v s).cmd.ver = s.cmd.ver := rfl
@[simp] theorem setCrc_cmd_type (v : Half) (s : State) : (setCrc v s).cmd.type = s.cmd.type := rfl
@[simp] theorem setCrc_cmd_msgId (v : Half) (s : State) : (setCrc v s).cmd.msgId = s.cmd.msgId := rfl
@[simp] theorem setCrc_cmd_totLen (v : Half) (s : State) : (setCrc v s).cmd.totLen = s.cmd.totLen := rfl
@[simp] theorem setCrc_cmd_fragIdx (v : Half) (s : State) : (setCrc v s).cmd.fragIdx = s.cmd.fragIdx := rfl
@[simp] theorem setCrc_cmd_fragCnt (v : Half) (s : State) : (setCrc v s).cmd.fragCnt = s.cmd.fragCnt := rfl
@[simp] theorem setCrc_cmd_payLen (v : Half) (s : State) : (setCrc v s).cmd.payLen = s.cmd.payLen := rfl
@[simp] theorem setCrc_cmd_nCnt (v : Half) (s : State) : (setCrc v s).cmd.nCnt = s.cmd.nCnt := rfl
@[simp] theorem setCrc_cmd_crc (v : Half) (s : State) : (setCrc v s).cmd.crc = v := rfl
@[simp] theorem setCrc_cmd_fid (v : Half) (s : State) : (setCrc v s).cmd.fid = s.cmd.fid := rfl
@[simp] theorem setCrc_cmd_addr64 (v : Half) (s : State) : (setCrc v s).cmd.addr64 = s.cmd.addr64 := rfl
@[simp] theorem setCrc_cmd_addr16 (v : Half) (s : State) : (setCrc v s).cmd.addr16 = s.cmd.addr16 := rfl
@[simp] theorem setCrc_cmd_radius (v : Half) (s : State) : (setCrc v s).cmd.radius = s.cmd.radius := rfl
@[simp] theorem setCrc_cmd_txOpt (v : Half) (s : State) : (setCrc v s).cmd.txOpt = s.cmd.txOpt := rfl
@[simp] theorem setCrc_cmd_atCode (v : Half) (s : State) : (setCrc v s).cmd.atCode = s.cmd.atCode := rfl
@[simp] theorem setCrc_cmd_iLen (v : Half) (s : State) : (setCrc v s).cmd.iLen = s.cmd.iLen := rfl
@[simp] theorem setCrc_cmd_oLen (v : Half) (s : State) : (setCrc v s).cmd.oLen = s.cmd.oLen := rfl
@[simp] theorem setCrc_cmd_ok (v : Half) (s : State) : (setCrc v s).cmd.ok = s.cmd.ok := rfl
@[simp] theorem setCrc_cmd_err (v : Half) (s : State) : (setCrc v s).cmd.err = s.cmd.err := rfl
@[simp] theorem setCrc_cmd_idxFile (v : Half) (s : State) : (setCrc v s).cmd.idxFile = s.cmd.idxFile := rfl
@[simp] theorem setCrc_cmd_ibuf (v : Half) (s : State) : (setCrc v s).cmd.ibuf = s.cmd.ibuf := rfl
@[simp] theorem setCrc_cmd_obuf (v : Half) (s : State) : (setCrc v s).cmd.obuf = s.cmd.obuf := rfl
@[simp] theorem setCrc_cmd_nextFid (v : Half) (s : State) : (setCrc v s).cmd.nextFid = s.cmd.nextFid := rfl
@[simp] theorem setCrc_cmd_cntCrcFail (v : Half) (s : State) : (setCrc v s).cmd.cntCrcFail = s.cmd.cntCrcFail := rfl

/-! ### `assignFrameId` -/

@[simp] theorem assignFrameId_cfg (s : State) : (assignFrameId s).cfg = s.cfg := rfl
@[simp] theorem assignFrameId_par (s : State) : (assignFrameId s).par = s.par := rfl
@[simp] theorem assignFrameId_input (s : State) : (assignFrameId s).input = s.input := rfl
@[simp] theorem assignFrameId_outputs (s : State) : (assignFrameId s).outputs = s.outputs := rfl
@[simp] theorem assignFrameId_cmd_ver (s : State) : (assignFrameId s).cmd.ver = s.cmd.ver := rfl
@[simp] theorem assignFrameId_cmd_type (s : State) : (assignFrameId s).cmd.type = s.cmd.type := rfl
@[simp] theorem assignFrameId_cmd_msgId (s : State) : (assignFrameId s).cmd.msgId = s.cmd.msgId := rfl
@[simp] theorem assignFrameId_cmd_totLen (s : State) : (assignFrameId s).cmd.totLen = s.cmd.totLen := rfl
@[simp] theorem assignFrameId_cmd_fragIdx (s : State) : (assignFrameId s).cmd.fragIdx = s.cmd.fragIdx := rfl
@[simp] theorem assignFrameId_cmd_fragCnt (s : State) : (assignFrameId s).cmd.fragCnt = s.cmd.fragCnt := rfl
@[simp] theorem assignFrameId_cmd_payLen (s : State) : (assignFrameId s).cmd.payLen = s.cmd.payLen := rfl
@[simp] theorem assignFrameId_cmd_nCnt (s : State) : (assignFrameId s).cmd.nCnt = s.cmd.nCnt := rfl
@[simp] theorem assignFrameId_cmd_crc (s : State) : (assignFrameId s).cmd.crc = s.cmd.crc := rfl
@[simp] theorem assignFrameId_cmd_fid (s : State) : (assignFrameId s).cmd.fid = s.cmd.nextFid := rfl
@[simp] theorem assignFrameId_cmd_addr64 (s : State) : (assignFrameId s).cmd.addr64 = s.cmd.addr64 := rfl
@[simp] theorem assignFrameId_cmd_addr16 (s : State) : (assignFrameId s).cmd.addr16 = s.cmd.addr16 := rfl
@[simp] theorem assignFrameId_cmd_radius (s : State) : (assignFrameId s).cmd.radius = s.cmd.radius := rfl
@[simp] theorem assignFrameId_cmd_txOpt (s : State) : (assignFrameId s).cmd.txOpt = s.cmd.txOpt := rfl
@[simp] theorem assignFrameId_cmd_atCode (s : State) : (assignFrameId s).cmd.atCode = s.cmd.atCode := rfl
@[simp] theorem assignFrameId_cmd_iLen (s : State) : (assignFrameId s).cmd.iLen = s.cmd.iLen := rfl
@[simp] theorem assignFrameId_cmd_oLen (s : State) : (assignFrameId s).cmd.oLen = s.cmd.oLen := rfl
@[simp] theorem assignFrameId_cmd_ok (s : State) : (assignFrameId s).cmd.ok = s.cmd.ok := rfl
@[simp] theorem assignFrameId_cmd_err (s : State) : (assignFrameId s).cmd.err = s.cmd.err := rfl
@[simp] theorem assignFrameId_cmd_idxFile (s : State) : (assignFrameId s).cmd.idxFile = s.cmd.idxFile := rfl
@[simp] theorem assignFrameId_cmd_ibuf (s : State) : (assignFrameId s).cmd.ibuf = s.cmd.ibuf := rfl
@[simp] theorem assignFrameId_cmd_obuf (s : State) : (assignFrameId s).cmd.obuf = s.cmd.obuf := rfl
@[simp] theorem assignFrameId_cmd_nextFid (s : State) : (assignFrameId s).cmd.nextFid = nextFrameId s.cmd.nextFid := rfl
@[simp] theorem assignFrameId_cmd_cntCrcFail (s : State) : (assignFrameId s).cmd.cntCrcFail = s.cmd.cntCrcFail := rfl

/-! ### `succeed` -/

@[simp] theorem succeed_cfg (s : State) : (succeed s).cfg = s.cfg := rfl
@[simp] theorem succeed_par (s : State) : (succeed s).par = s.par := rfl
@[simp] theorem succeed_input (s : State) : (succeed s).input = s.input := rfl
@[simp] theorem succeed_outputs (s : State) : (succeed s).outputs = s.outputs := rfl
@[simp] theorem succeed_cmd_ver (s : State) : (succeed s).cmd.ver = s.cmd.ver := rfl
@[simp] theorem succeed_cmd_type (s : State) : (succeed s).cmd.type = s.cmd.type := rfl
@[simp] theorem succeed_cmd_msgId (s : State) : (succeed s).cmd.msgId = s.cmd.msgId := rfl
@[simp] theorem succeed_cmd_totLen (s : State) : (succeed s).cmd.totLen = s.cmd.totLen := rfl
@[simp] theorem succeed_cmd_fragIdx (s : State) : (succeed s).cmd.fragIdx = s.cmd.fragIdx := rfl
@[simp] theorem succeed_cmd_fragCnt (s : State) : (succeed s).cmd.fragCnt = s.cmd.fragCnt := rfl
@[simp] theorem succeed_cmd_payLen (s : State) : (succeed s).cmd.payLen = s.cmd.payLen := rfl
@[simp] theorem succeed_cmd_nCnt (s : State) : (succeed s).cmd.nCnt = s.cmd.nCnt := rfl
@[simp] theorem succeed_cmd_crc (s : State) : (succeed s).cmd.crc = s.cmd.crc := rfl
@[simp] theorem succeed_cmd_fid (s : State) : (succeed s).cmd.fid = s.cmd.fid := rfl
@[simp] theorem succeed_cmd_addr64 (s : State) : (succeed s).cmd.addr64 = s.cmd.addr64 := rfl
@[simp] theorem succeed_cmd_addr16 (s : State) : (succeed s).cmd.addr16 = s.cmd.addr16 := rfl
@[simp] theorem succeed_cmd_radius (s : State) : (succeed s).cmd.radius = s.cmd.radius := rfl
@[simp] theorem succeed_cmd_txOpt (s : State) : (succeed s).cmd.txOpt = s.cmd.txOpt := rfl
@[simp] theorem succeed_cmd_atCode (s : State) : (succeed s).cmd.atCode = s.cmd.atCode := rfl
@[simp] theorem succeed_cmd_iLen (s : State) : (succeed s).cmd.iLen = s.cmd.iLen := rfl
@[simp] theorem succeed_cmd_oLen (s : State) : (succeed s).cmd.oLen = s.cmd.oLen := rfl
@[simp] theorem succeed_cmd_ok (s : State) : (succeed s).cmd.ok = true := rfl
@[simp] theorem succeed_cmd_err (s : State) : (succeed s).cmd.err = 0x00 := rfl
@[simp] theorem succeed_cmd_idxFile (s : State) : (succeed s).cmd.idxFile = s.cmd.idxFile := rfl
@[simp] theorem succeed_cmd_ibuf (s : State) : (succeed s).cmd.ibuf = s.cmd.ibuf := rfl
@[simp] theorem succeed_cmd_obuf (s : State) : (succeed s).cmd.obuf = s.cmd.obuf := rfl
@[simp] theorem succeed_cmd_nextFid (s : State) : (succeed s).cmd.nextFid = s.cmd.nextFid := rfl
@[simp] theorem succeed_cmd_cntCrcFail (s : State) : (succeed s).cmd.cntCrcFail = s.cmd.cntCrcFail := rfl

/-! ### `raise` -/

@[simp] theorem raise_cfg (e : CmdError) (s : State) : (raise e s).cfg = s.cfg := rfl
@[simp] theorem raise_par (e : CmdError) (s : State) : (raise e s).par = s.par := rfl
@[simp] theorem raise_input (e : CmdError) (s : State) : (raise e s).input = s.input := rfl
@[simp] theorem raise_outputs (e : CmdError) (s : State) : (raise e s).outputs = s.outputs := rfl
@[simp] theorem raise_cmd_ver (e : CmdError) (s : State) : (raise e s).cmd.ver = s.cmd.ver := rfl
@[simp] theorem raise_cmd_type (e : CmdError) (s : State) : (raise e s).cmd.type = s.cmd.type := rfl
@[simp] theorem raise_cmd_msgId (e : CmdError) (s : State) : (raise e s).cmd.msgId = s.cmd.msgId := rfl
@[simp] theorem raise_cmd_totLen (e : CmdError) (s : State) : (raise e s).cmd.totLen = s.cmd.totLen := rfl
@[simp] theorem raise_cmd_fragIdx (e : CmdError) (s : State) : (raise e s).cmd.fragIdx = s.cmd.fragIdx := rfl
@[simp] theorem raise_cmd_fragCnt (e : CmdError) (s : State) : (raise e s).cmd.fragCnt = s.cmd.fragCnt := rfl
@[simp] theorem raise_cmd_payLen (e : CmdError) (s : State) : (raise e s).cmd.payLen = s.cmd.payLen := rfl
@[simp] theorem raise_cmd_nCnt (e : CmdError) (s : State) : (raise e s).cmd.nCnt = s.cmd.nCnt := rfl
@[simp] theorem raise_cmd_crc (e : CmdError) (s : State) : (raise e s).cmd.crc = s.cmd.crc := rfl
@[simp] theorem raise_cmd_fid (e : CmdError) (s : State) : (raise e s).cmd.fid = s.cmd.fid := rfl
@[simp] theorem raise_cmd_addr64 (e : CmdError) (s : State) : (raise e s).cmd.addr64 = s.cmd.addr64 := rfl
@[simp] theorem raise_cmd_addr16 (e : CmdError) (s : State) : (raise e s).cmd.addr16 = s.cmd.addr16 := rfl
@[simp] theorem raise_cmd_radius (e : CmdError) (s : State) : (raise e s).cmd.radius = s.cmd.radius := rfl
@[simp] theorem raise_cmd_txOpt (e : CmdError) (s : State) : (raise e s).cmd.txOpt = s.cmd.txOpt := rfl
@[simp] theorem raise_cmd_atCode (e : CmdError) (s : State) : (raise e s).cmd.atCode = s.cmd.atCode := rfl
@[simp] theorem raise_cmd_iLen (e : CmdError) (s : State) : (raise e s).cmd.iLen = s.cmd.iLen := rfl
@[simp] theorem raise_cmd_oLen (e : CmdError) (s : State) : (raise e s).cmd.oLen = s.cmd.oLen := rfl
@[simp] theorem raise_cmd_ok (e : CmdError) (s : State) : (raise e s).cmd.ok = false := rfl
@[simp] theorem raise_cmd_err (e : CmdError) (s : State) : (raise e s).cmd.err = e.code := rfl
@[simp] theorem raise_cmd_idxFile (e : CmdError) (s : State) : (raise e s).cmd.idxFile = s.cmd.idxFile := rfl
@[simp] theorem raise_cmd_ibuf (e : CmdError) (s : State) : (raise e s).cmd.ibuf = s.cmd.ibuf := rfl
@[simp] theorem raise_cmd_obuf (e : CmdError) (s : State) : (raise e s).cmd.obuf = s.cmd.obuf := rfl
@[simp] theorem raise_cmd_nextFid (e : CmdError) (s : State) : (raise e s).cmd.nextFid = s.cmd.nextFid := rfl
@[simp] theorem raise_cmd_cntCrcFail (e : CmdError) (s : State) : (raise e s).cmd.cntCrcFail = s.cmd.cntCrcFail := rfl

/-! ### `raiseCrcDrop` -/

@[simp] theorem raiseCrcDrop_cfg (s : State) : (raiseCrcDrop s).cfg = s.cfg := rfl
@[simp] theorem raiseCrcDrop_par (s : State) : (raiseCrcDrop s).par = s.par := rfl
@[simp] theorem raiseCrcDrop_input (s : State) : (raiseCrcDrop s).input = s.input := rfl
@[simp] theorem raiseCrcDrop_outputs (s : State) : (raiseCrcDrop s).outputs = s.outputs := rfl
@[simp] theorem raiseCrcDrop_cmd_ver (s : State) : (raiseCrcDrop s).cmd.ver = s.cmd.ver := rfl
@[simp] theorem raiseCrcDrop_cmd_type (s : State) : (raiseCrcDrop s).cmd.type = s.cmd.type := rfl
@[simp] theorem raiseCrcDrop_cmd_msgId (s : State) : (raiseCrcDrop s).cmd.msgId = s.cmd.msgId := rfl
@[simp] theorem raiseCrcDrop_cmd_totLen (s : State) : (raiseCrcDrop s).cmd.totLen = s.cmd.totLen := rfl
@[simp] theorem raiseCrcDrop_cmd_fragIdx (s : State) : (raiseCrcDrop s).cmd.fragIdx = s.cmd.fragIdx := rfl
@[simp] theorem raiseCrcDrop_cmd_fragCnt (s : State) : (raiseCrcDrop s).cmd.fragCnt = s.cmd.fragCnt := rfl
@[simp] theorem raiseCrcDrop_cmd_payLen (s : State) : (raiseCrcDrop s).cmd.payLen = s.cmd.payLen := rfl
@[simp] theorem raiseCrcDrop_cmd_nCnt (s : State) : (raiseCrcDrop s).cmd.nCnt = s.cmd.nCnt := rfl
@[simp] theorem raiseCrcDrop_cmd_crc (s : State) : (raiseCrcDrop s).cmd.crc = s.cmd.crc := rfl
@[simp] theorem raiseCrcDrop_cmd_fid (s : State) : (raiseCrcDrop s).cmd.fid = s.cmd.fid := rfl
@[simp] theorem raiseCrcDrop_cmd_addr64 (s : State) : (raiseCrcDrop s).cmd.addr64 = s.cmd.addr64 := rfl
@[simp] theorem raiseCrcDrop_cmd_addr16 (s : State) : (raiseCrcDrop s).cmd.addr16 = s.cmd.addr16 := rfl
@[simp] theorem raiseCrcDrop_cmd_radius (s : State) : (raiseCrcDrop s).cmd.radius = s.cmd.radius := rfl
@[simp] theorem raiseCrcDrop_cmd_txOpt (s : State) : (raiseCrcDrop s).cmd.txOpt = s.cmd.txOpt := rfl
@[simp] theorem raiseCrcDrop_cmd_atCode (s : State) : (raiseCrcDrop s).cmd.atCode = s.cmd.atCode := rfl
@[simp] theorem raiseCrcDrop_cmd_iLen (s : State) : (raiseCrcDrop s).cmd.iLen = s.cmd.iLen := rfl
@[simp] theorem raiseCrcDrop_cmd_oLen (s : State) : (raiseCrcDrop s).cmd.oLen = s.cmd.oLen := rfl
@[simp] theorem raiseCrcDrop_cmd_ok (s : State) : (raiseCrcDrop s).cmd.ok = false := rfl
@[simp] theorem raiseCrcDrop_cmd_err (s : State) : (raiseCrcDrop s).cmd.err = 0x03 := rfl
@[simp] theorem raiseCrcDrop_cmd_idxFile (s : State) : (raiseCrcDrop s).cmd.idxFile = s.cmd.idxFile := rfl
@[simp] theorem raiseCrcDrop_cmd_ibuf (s : State) : (raiseCrcDrop s).cmd.ibuf = s.cmd.ibuf := rfl
@[simp] theorem raiseCrcDrop_cmd_obuf (s : State) : (raiseCrcDrop s).cmd.obuf = s.cmd.obuf := rfl
@[simp] theorem raiseCrcDrop_cmd_nextFid (s : State) : (raiseCrcDrop s).cmd.nextFid = s.cmd.nextFid := rfl
@[simp] theorem raiseCrcDrop_cmd_cntCrcFail (s : State) : (raiseCrcDrop s).cmd.cntCrcFail = countUp s.cfg.cntW s.cmd.cntCrcFail := rfl

/-! ### `deliverHeader` -/

@[simp] theorem deliverHeader_cfg (m : List Byte) (s : State) : (deliverHeader m s).cfg = s.cfg := rfl
@[simp] theorem deliverHeader_par (m : List Byte) (s : State) : (deliverHeader m s).par = s.par := rfl
@[simp] theorem deliverHeader_input (m : List Byte) (s : State) : (deliverHeader m s).input = s.input := rfl
@[simp] theorem deliverHeader_outputs (m : List Byte) (s : State) : (deliverHeader m s).outputs = s.outputs := rfl
@[simp] theorem deliverHeader_cmd_ver (m : List Byte) (s : State) : (deliverHeader m s).cmd.ver = byteAt m 0 := rfl
@[simp] theorem deliverHeader_cmd_type (m : List Byte) (s : State) : (deliverHeader m s).cmd.type = byteAt m 1 := rfl
@[simp] theorem deliverHeader_cmd_msgId (m : List Byte) (s : State) : (deliverHeader m s).cmd.msgId = get16 m 2 := rfl
@[simp] theorem deliverHeader_cmd_totLen (m : List Byte) (s : State) : (deliverHeader m s).cmd.totLen = get32 m 4 := rfl
@[simp] theorem deliverHeader_cmd_fragIdx (m : List Byte) (s : State) : (deliverHeader m s).cmd.fragIdx = get16 m 8 := rfl
@[simp] theorem deliverHeader_cmd_fragCnt (m : List Byte) (s : State) : (deliverHeader m s).cmd.fragCnt = get16 m 10 := rfl
@[simp] theorem deliverHeader_cmd_payLen (m : List Byte) (s : State) : (deliverHeader m s).cmd.payLen = byteAt m 12 := rfl
@[simp] theorem deliverHeader_cmd_nCnt (m : List Byte) (s : State) : (deliverHeader m s).cmd.nCnt = s.cmd.nCnt := rfl
@[simp] theorem deliverHeader_cmd_crc (m : List Byte) (s : State) : (deliverHeader m s).cmd.crc = s.cmd.crc := rfl
@[simp] theorem deliverHeader_cmd_fid (m : List Byte) (s : State) : (deliverHeader m s).cmd.fid = s.cmd.fid := rfl
@[simp] theorem deliverHeader_cmd_addr64 (m : List Byte) (s : State) : (deliverHeader m s).cmd.addr64 = s.cmd.addr64 := rfl
@[simp] theorem deliverHeader_cmd_addr16 (m : List Byte) (s : State) : (deliverHeader m s).cmd.addr16 = s.cmd.addr16 := rfl
@[simp] theorem deliverHeader_cmd_radius (m : List Byte) (s : State) : (deliverHeader m s).cmd.radius = s.cmd.radius := rfl
@[simp] theorem deliverHeader_cmd_txOpt (m : List Byte) (s : State) : (deliverHeader m s).cmd.txOpt = s.cmd.txOpt := rfl
@[simp] theorem deliverHeader_cmd_atCode (m : List Byte) (s : State) : (deliverHeader m s).cmd.atCode = s.cmd.atCode := rfl
@[simp] theorem deliverHeader_cmd_iLen (m : List Byte) (s : State) : (deliverHeader m s).cmd.iLen = s.cmd.iLen := rfl
@[simp] theorem deliverHeader_cmd_oLen (m : List Byte) (s : State) : (deliverHeader m s).cmd.oLen = s.cmd.oLen := rfl
@[simp] theorem deliverHeader_cmd_ok (m : List Byte) (s : State) : (deliverHeader m s).cmd.ok = s.cmd.ok := rfl
@[simp] theorem deliverHeader_cmd_err (m : List Byte) (s : State) : (deliverHeader m s).cmd.err = s.cmd.err := rfl
@[simp] theorem deliverHeader_cmd_idxFile (m : List Byte) (s : State) : (deliverHeader m s).cmd.idxFile = s.cmd.idxFile := rfl
@[simp] theorem deliverHeader_cmd_ibuf (m : List Byte) (s : State) : (deliverHeader m s).cmd.ibuf = s.cmd.ibuf := rfl
@[simp] theorem deliverHeader_cmd_obuf (m : List Byte) (s : State) : (deliverHeader m s).cmd.obuf = s.cmd.obuf := rfl
@[simp] theorem deliverHeader_cmd_nextFid (m : List Byte) (s : State) : (deliverHeader m s).cmd.nextFid = s.cmd.nextFid := rfl
@[simp] theorem deliverHeader_cmd_cntCrcFail (m : List Byte) (s : State) : (deliverHeader m s).cmd.cntCrcFail = s.cmd.cntCrcFail := rfl

/-! ### `deliverNack` -/

@[simp] theorem deliverNack_cfg (m : List Byte) (s : State) : (deliverNack m s).cfg = s.cfg := rfl
@[simp] theorem deliverNack_par (m : List Byte) (s : State) : (deliverNack m s).par = s.par := rfl
@[simp] theorem deliverNack_input (m : List Byte) (s : State) : (deliverNack m s).input = s.input := rfl
@[simp] theorem deliverNack_outputs (m : List Byte) (s : State) : (deliverNack m s).outputs = s.outputs := rfl
@[simp] theorem deliverNack_cmd_ver (m : List Byte) (s : State) : (deliverNack m s).cmd.ver = byteAt m 0 := rfl
@[simp] theorem deliverNack_cmd_type (m : List Byte) (s : State) : (deliverNack m s).cmd.type = byteAt m 1 := rfl
@[simp] theorem deliverNack_cmd_msgId (m : List Byte) (s : State) : (deliverNack m s).cmd.msgId = get16 m 2 := rfl
@[simp] theorem deliverNack_cmd_totLen (m : List Byte) (s : State) : (deliverNack m s).cmd.totLen = s.cmd.totLen := rfl
@[simp] theorem deliverNack_cmd_fragIdx (m : List Byte) (s : State) : (deliverNack m s).cmd.fragIdx = s.cmd.fragIdx := rfl
@[simp] theorem deliverNack_cmd_fragCnt (m : List Byte) (s : State) : (deliverNack m s).cmd.fragCnt = s.cmd.fragCnt := rfl
@[simp] theorem deliverNack_cmd_payLen (m : List Byte) (s : State) : (deliverNack m s).cmd.payLen = s.cmd.payLen := rfl
@[simp] theorem deliverNack_cmd_nCnt (m : List Byte) (s : State) : (deliverNack m s).cmd.nCnt = byteAt m 4 := rfl
@[simp] theorem deliverNack_cmd_crc (m : List Byte) (s : State) : (deliverNack m s).cmd.crc = s.cmd.crc := rfl
@[simp] theorem deliverNack_cmd_fid (m : List Byte) (s : State) : (deliverNack m s).cmd.fid = s.cmd.fid := rfl
@[simp] theorem deliverNack_cmd_addr64 (m : List Byte) (s : State) : (deliverNack m s).cmd.addr64 = s.cmd.addr64 := rfl
@[simp] theorem deliverNack_cmd_addr16 (m : List Byte) (s : State) : (deliverNack m s).cmd.addr16 = s.cmd.addr16 := rfl
@[simp] theorem deliverNack_cmd_radius (m : List Byte) (s : State) : (deliverNack m s).cmd.radius = s.cmd.radius := rfl
@[simp] theorem deliverNack_cmd_txOpt (m : List Byte) (s : State) : (deliverNack m s).cmd.txOpt = s.cmd.txOpt := rfl
@[simp] theorem deliverNack_cmd_atCode (m : List Byte) (s : State) : (deliverNack m s).cmd.atCode = s.cmd.atCode := rfl
@[simp] theorem deliverNack_cmd_iLen (m : List Byte) (s : State) : (deliverNack m s).cmd.iLen = s.cmd.iLen := rfl
@[simp] theorem deliverNack_cmd_oLen (m : List Byte) (s : State) : (deliverNack m s).cmd.oLen = s.cmd.oLen := rfl
@[simp] theorem deliverNack_cmd_ok (m : List Byte) (s : State) : (deliverNack m s).cmd.ok = s.cmd.ok := rfl
@[simp] theorem deliverNack_cmd_err (m : List Byte) (s : State) : (deliverNack m s).cmd.err = s.cmd.err := rfl
@[simp] theorem deliverNack_cmd_idxFile (m : List Byte) (s : State) : (deliverNack m s).cmd.idxFile = IndexFile.writeAll 0 (getHalves m 5 (byteAt m 4).toNat) s.cmd.idxFile := rfl
@[simp] theorem deliverNack_cmd_ibuf (m : List Byte) (s : State) : (deliverNack m s).cmd.ibuf = s.cmd.ibuf := rfl
@[simp] theorem deliverNack_cmd_obuf (m : List Byte) (s : State) : (deliverNack m s).cmd.obuf = s.cmd.obuf := rfl
@[simp] theorem deliverNack_cmd_nextFid (m : List Byte) (s : State) : (deliverNack m s).cmd.nextFid = s.cmd.nextFid := rfl
@[simp] theorem deliverNack_cmd_cntCrcFail (m : List Byte) (s : State) : (deliverNack m s).cmd.cntCrcFail = s.cmd.cntCrcFail := rfl

/-! ### `deliverDone` -/

@[simp] theorem deliverDone_cfg (m : List Byte) (s : State) : (deliverDone m s).cfg = s.cfg := rfl
@[simp] theorem deliverDone_par (m : List Byte) (s : State) : (deliverDone m s).par = s.par := rfl
@[simp] theorem deliverDone_input (m : List Byte) (s : State) : (deliverDone m s).input = s.input := rfl
@[simp] theorem deliverDone_outputs (m : List Byte) (s : State) : (deliverDone m s).outputs = s.outputs := rfl
@[simp] theorem deliverDone_cmd_ver (m : List Byte) (s : State) : (deliverDone m s).cmd.ver = byteAt m 0 := rfl
@[simp] theorem deliverDone_cmd_type (m : List Byte) (s : State) : (deliverDone m s).cmd.type = byteAt m 1 := rfl
@[simp] theorem deliverDone_cmd_msgId (m : List Byte) (s : State) : (deliverDone m s).cmd.msgId = get16 m 2 := rfl
@[simp] theorem deliverDone_cmd_totLen (m : List Byte) (s : State) : (deliverDone m s).cmd.totLen = s.cmd.totLen := rfl
@[simp] theorem deliverDone_cmd_fragIdx (m : List Byte) (s : State) : (deliverDone m s).cmd.fragIdx = s.cmd.fragIdx := rfl
@[simp] theorem deliverDone_cmd_fragCnt (m : List Byte) (s : State) : (deliverDone m s).cmd.fragCnt = s.cmd.fragCnt := rfl
@[simp] theorem deliverDone_cmd_payLen (m : List Byte) (s : State) : (deliverDone m s).cmd.payLen = s.cmd.payLen := rfl
@[simp] theorem deliverDone_cmd_nCnt (m : List Byte) (s : State) : (deliverDone m s).cmd.nCnt = s.cmd.nCnt := rfl
@[simp] theorem deliverDone_cmd_crc (m : List Byte) (s : State) : (deliverDone m s).cmd.crc = s.cmd.crc := rfl
@[simp] theorem deliverDone_cmd_fid (m : List Byte) (s : State) : (deliverDone m s).cmd.fid = s.cmd.fid := rfl
@[simp] theorem deliverDone_cmd_addr64 (m : List Byte) (s : State) : (deliverDone m s).cmd.addr64 = s.cmd.addr64 := rfl
@[simp] theorem deliverDone_cmd_addr16 (m : List Byte) (s : State) : (deliverDone m s).cmd.addr16 = s.cmd.addr16 := rfl
@[simp] theorem deliverDone_cmd_radius (m : List Byte) (s : State) : (deliverDone m s).cmd.radius = s.cmd.radius := rfl
@[simp] theorem deliverDone_cmd_txOpt (m : List Byte) (s : State) : (deliverDone m s).cmd.txOpt = s.cmd.txOpt := rfl
@[simp] theorem deliverDone_cmd_atCode (m : List Byte) (s : State) : (deliverDone m s).cmd.atCode = s.cmd.atCode := rfl
@[simp] theorem deliverDone_cmd_iLen (m : List Byte) (s : State) : (deliverDone m s).cmd.iLen = s.cmd.iLen := rfl
@[simp] theorem deliverDone_cmd_oLen (m : List Byte) (s : State) : (deliverDone m s).cmd.oLen = s.cmd.oLen := rfl
@[simp] theorem deliverDone_cmd_ok (m : List Byte) (s : State) : (deliverDone m s).cmd.ok = s.cmd.ok := rfl
@[simp] theorem deliverDone_cmd_err (m : List Byte) (s : State) : (deliverDone m s).cmd.err = s.cmd.err := rfl
@[simp] theorem deliverDone_cmd_idxFile (m : List Byte) (s : State) : (deliverDone m s).cmd.idxFile = s.cmd.idxFile := rfl
@[simp] theorem deliverDone_cmd_ibuf (m : List Byte) (s : State) : (deliverDone m s).cmd.ibuf = s.cmd.ibuf := rfl
@[simp] theorem deliverDone_cmd_obuf (m : List Byte) (s : State) : (deliverDone m s).cmd.obuf = s.cmd.obuf := rfl
@[simp] theorem deliverDone_cmd_nextFid (m : List Byte) (s : State) : (deliverDone m s).cmd.nextFid = s.cmd.nextFid := rfl
@[simp] theorem deliverDone_cmd_cntCrcFail (m : List Byte) (s : State) : (deliverDone m s).cmd.cntCrcFail = s.cmd.cntCrcFail := rfl

/-! ### `parserError` -/

@[simp] theorem parserError_cfg (e : ParseError) (s : State) : (parserError e s).cfg = s.cfg := rfl
@[simp] theorem parserError_cmd (e : ParseError) (s : State) : (parserError e s).cmd = s.cmd := rfl
@[simp] theorem parserError_input (e : ParseError) (s : State) : (parserError e s).input = s.input := rfl
@[simp] theorem parserError_outputs (e : ParseError) (s : State) : (parserError e s).outputs = s.outputs ++ [.event (.error e.code)] := rfl
@[simp] theorem parserError_par_pstate (e : ParseError) (s : State) : (parserError e s).par.pstate = .waitingForStart := rfl
@[simp] theorem parserError_par_esc (e : ParseError) (s : State) : (parserError e s).par.esc = s.par.esc := rfl
@[simp] theorem parserError_par_flen (e : ParseError) (s : State) : (parserError e s).par.flen = s.par.flen := rfl
@[simp] theorem parserError_par_idx (e : ParseError) (s : State) : (parserError e s).par.idx = s.par.idx := rfl
@[simp] theorem parserError_par_sum (e : ParseError) (s : State) : (parserError e s).par.sum = s.par.sum := rfl
@[simp] theorem parserError_par_fbuf (e : ParseError) (s : State) : (parserError e s).par.fbuf = s.par.fbuf := rfl
@[simp] theorem parserError_par_cntFrameErr (e : ParseError) (s : State) : (parserError e s).par.cntFrameErr = countUp s.cfg.cntW s.par.cntFrameErr := rfl

/-! ### `setEsc` -/

@[simp] theorem setEsc_cfg (v : Bool) (s : State) : (setEsc v s).cfg = s.cfg := rfl
@[simp] theorem setEsc_cmd (v : Bool) (s : State) : (setEsc v s).cmd = s.cmd := rfl
@[simp] theorem setEsc_input (v : Bool) (s : State) : (setEsc v s).input = s.input := rfl
@[simp] theorem setEsc_outputs (v : Bool) (s : State) : (setEsc v s).outputs = s.outputs := rfl
@[simp] theorem setEsc_par_pstate (v : Bool) (s : State) : (setEsc v s).par.pstate = s.par.pstate := rfl
@[simp] theorem setEsc_par_esc (v : Bool) (s : State) : (setEsc v s).par.esc = v := rfl
@[simp] theorem setEsc_par_flen (v : Bool) (s : State) : (setEsc v s).par.flen = s.par.flen := rfl
@[simp] theorem setEsc_par_idx (v : Bool) (s : State) : (setEsc v s).par.idx = s.par.idx := rfl
@[simp] theorem setEsc_par_sum (v : Bool) (s : State) : (setEsc v s).par.sum = s.par.sum := rfl
@[simp] theorem setEsc_par_fbuf (v : Bool) (s : State) : (setEsc v s).par.fbuf = s.par.fbuf := rfl
@[simp] theorem setEsc_par_cntFrameErr (v : Bool) (s : State) : (setEsc v s).par.cntFrameErr = s.par.cntFrameErr := rfl

/-! ### `emit` -/

@[simp] theorem emit_cfg (e : Event) (s : State) : (emit e s).cfg = s.cfg := rfl
@[simp] theorem emit_cmd (e : Event) (s : State) : (emit e s).cmd = s.cmd := rfl
@[simp] theorem emit_par (e : Event) (s : State) : (emit e s).par = s.par := rfl
@[simp] theorem emit_input (e : Event) (s : State) : (emit e s).input = s.input := rfl
@[simp] theorem emit_outputs (e : Event) (s : State) : (emit e s).outputs = s.outputs ++ [.event e] := rfl

/-! ### `resetBlock` -/

@[simp] theorem resetBlock_cfg (s : State) : (resetBlock s).cfg = s.cfg := rfl
@[simp] theorem resetBlock_cmd (s : State) : (resetBlock s).cmd = resetCommandUnit := rfl
@[simp] theorem resetBlock_par (s : State) : (resetBlock s).par = resetParserUnit := rfl
@[simp] theorem resetBlock_input (s : State) : (resetBlock s).input = s.input := rfl
@[simp] theorem resetBlock_outputs (s : State) : (resetBlock s).outputs = s.outputs := rfl

end Sys2Proof.Machine
end

