-- ==== Sys2Proof/Laws/Ops.lean ====
section
/-! SUPPORT. For each shared operation one lemma that says once what it can do; proofs cite these instead of
unfolding the operation. -/

namespace Sys2Proof.Machine

/-! ## The parameters -/

/-- The ranges of U10. -/
theorem params_ranges {p : Params} (h : p.ok = true) :
    520 ≤ p.bufCap ∧ p.bufCap ≤ 65535 ∧ 1 ≤ p.cntW ∧ p.cntW ≤ 64 := by
  simpa [Params.ok] using h

/-! ## Reading the input -/

/-- A command's input is `inp` exactly when reading `IBUF[0..ILEN)` answers it. -/
theorem inputIs_iff (s : State) (inp : List Byte) :
    InputIs s inp ↔ inputLen s ≤ s.cfg.bufCap ∧ readBytes .ibuf s.cmd.ibuf 0 (inputLen s) = .ok inp := by
  rw [readBytes_ok_iff]
  simp only [inputLen, Nat.zero_add]
  constructor
  · rintro ⟨hl, hc, h⟩
    exact ⟨hl ▸ hc, hl, fun i hi => h i (hl ▸ hi)⟩
  · rintro ⟨hc, hl, h⟩
    exact ⟨hl, hl ▸ hc, fun i hi => h i (hl ▸ hi)⟩

/-- A command whose input is `inp` goes on with `inp`. -/
theorem withInput_of_inputIs {s : State} {inp : List Byte} (h : InputIs s inp) (k : List Byte → Result) :
    withInput s k = k inp := by
  obtain ⟨hc, hr⟩ := (inputIs_iff s inp).1 h
  unfold withInput withBytes
  rw [if_pos (by omega), hr]

/-- A command that reads its input and answers a next state went on with that input. -/
theorem withInput_next {s t : State} {k : List Byte → Result} (h : withInput s k = .next t) :
    ∃ inp, InputIs s inp ∧ k inp = .next t := by
  unfold withInput withBytes at h
  split at h
  · rename_i hc
    split at h
    · rename_i inp hr
      exact ⟨inp, (inputIs_iff s inp).2 ⟨by omega, hr⟩, h⟩
    · cases h
  · cases h

/-- Reading `n` bytes of the input from `a` on, when they are there. -/
theorem withBytes_of_read {s : State} {a n : Nat} {b : List Byte} (hc : a + n ≤ s.cfg.bufCap) (hl : b.length = n)
    (h : ∀ i, i < n → Memory.read s.cmd.ibuf (a + i) = b[i]?) (k : List Byte → Result) :
    withBytes a n s k = k b := by
  unfold withBytes
  rw [if_pos hc, (readBytes_ok_iff .ibuf s.cmd.ibuf a n b).2 ⟨hl, h⟩]

/-- What reading `n` bytes of the input from `a` on did, if it went on. -/
theorem withBytes_next {s t : State} {a n : Nat} {k : List Byte → Result} (h : withBytes a n s k = .next t) :
    ∃ b, b.length = n ∧ (∀ i, i < n → Memory.read s.cmd.ibuf (a + i) = b[i]?) ∧ k b = .next t := by
  unfold withBytes at h
  split at h
  · split at h
    · rename_i b hr
      obtain ⟨hl, hb⟩ := (readBytes_ok_iff _ _ _ _ _).1 hr
      exact ⟨b, hl, hb, h⟩
    · cases h
  · cases h

/-! ## Writing the output -/

/-- A stored string is what `OBUF` holds, and `OLEN` its length. -/
theorem outputIs_setOutput (o : List Byte) (s : State) (h : o.length < 65536) : OutputIs (setOutput o s) o := by
  refine ⟨?_, fun i _ => by simp⟩
  simp only [setOutput_cmd_oLen, BitVec.toNat_ofNat]
  exact Nat.mod_eq_of_lt h

/-- Storing answers a next state only of a string that fits. -/
theorem storeOutput_next {o : List Byte} {s t : State} {k : State → Result} :
    storeOutput o s k = .next t ↔ o.length ≤ s.cfg.bufCap ∧ k (setOutput o s) = .next t := by
  unfold storeOutput
  split
  · rename_i h; simp [h]
  · rename_i h; simp [h]

/-- A frame that is sent fits and stands in the output of the state with the frame id taken, or it is too long and
the command fails. -/
theorem sendFrame_cases (body : List Byte) (s s' : State) :
    (s.cfg.bufCap < (wire body).length ∧ sendFrame body s s' = .next (raise .overflow s)) ∨
    ((wire body).length ≤ s.cfg.bufCap ∧ sendFrame body s s' = .next (succeed (setOutput (wire body) s'))) := by
  unfold sendFrame
  split
  · rename_i h; exact .inl ⟨h, rfl⟩
  · rename_i h; exact .inr ⟨by omega, rfl⟩

/-- A message that fits is stored with its CRC, in `OBUF` and in `CRC`, and nothing else changes. -/
theorem storeMessage_next (h : List Byte) (s : State) (hc : s.cfg.ok = true) (hl : h.length + 2 ≤ s.cfg.bufCap) :
    ∃ t, storeMessage (crcAppend h) s = .next t ∧ t.cmd.oLen.toNat = h.length + 2 ∧ OutputIs t (h ++ be16 (crc16 h)) ∧
      t = { s with cmd := { s.cmd with
        crc := crc16 h, oLen := t.cmd.oLen, obuf := t.cmd.obuf, ok := true, err := 0x00 } } := by
  have hk := params_ranges hc
  have hn := length_crcAppend h
  have hg : get16 (crcAppend h) ((crcAppend h).length - 2) = crc16 h := by rw [hn]; exact get16_crcAppend h
  have ho := outputIs_setOutput (crcAppend h) s (by omega)
  unfold storeMessage storeOutput
  rw [if_pos (by omega), hg]
  exact ⟨_, rfl, ho.1.trans hn, ho, rfl⟩

/-! ## Validating a message -/

/-- The tests of R131, in their order. -/
theorem validate_cases (tag : Byte) (len : Nat) (m : List Byte) (s : State) (k : Result) :
    (crcVerify m = false ∧ validate tag len m s k = .next (raiseCrcDrop s)) ∨
    (crcVerify m = true ∧ byteAt m 0 ≠ 0x01 ∧ validate tag len m s k = .next (raise .version s)) ∨
    (crcVerify m = true ∧ byteAt m 0 = 0x01 ∧ byteAt m 1 ≠ tag ∧ validate tag len m s k = .next (raise .type s)) ∨
    (crcVerify m = true ∧ byteAt m 0 = 0x01 ∧ byteAt m 1 = tag ∧ m.length ≠ len ∧
      validate tag len m s k = .next (raise .length s)) ∨
    (crcVerify m = true ∧ byteAt m 0 = 0x01 ∧ byteAt m 1 = tag ∧ m.length = len ∧ validate tag len m s k = k) := by
  unfold validate
  have hv : Config.protoVersion = (0x01 : Byte) := rfl
  rw [hv]
  by_cases h1 : crcVerify m = false
  · exact .inl ⟨h1, by rw [if_pos h1]⟩
  have h1' : crcVerify m = true := by simpa using h1
  rw [if_neg h1]
  by_cases h2 : byteAt m 0 = 0x01
  · rw [if_neg (not_not_intro h2)]
    by_cases h3 : byteAt m 1 = tag
    · rw [if_neg (not_not_intro h3)]
      by_cases h4 : m.length = len
      · exact .inr (.inr (.inr (.inr ⟨h1', h2, h3, h4, by rw [if_neg (not_not_intro h4)]⟩)))
      · exact .inr (.inr (.inr (.inl ⟨h1', h2, h3, h4, by rw [if_pos h4]⟩)))
    · exact .inr (.inr (.inl ⟨h1', h2, h3, by rw [if_pos h3]⟩))
  · exact .inr (.inl ⟨h1', h2, by rw [if_pos h2]⟩)

/-- A parse of the input fails for its length, or goes on with the input. -/
theorem receiveInput_next {n : Nat} {receive : List Byte → State → Result} {s t : State}
    (h : receiveInput n receive s = .next t) :
    (inputLen s < n ∧ t = raise .short s) ∨ ∃ inp, n ≤ inputLen s ∧ InputIs s inp ∧ receive inp s = .next t := by
  unfold receiveInput at h
  split at h
  · rename_i hl
    cases h
    exact .inl ⟨hl, rfl⟩
  · rename_i hl
    obtain ⟨inp, hi, hr⟩ := withInput_next h
    exact .inr ⟨inp, by omega, hi, hr⟩

/-- The index list of a NACK is as long as its count. -/
@[simp] theorem length_getHalves (m : List Byte) (o n : Nat) : (getHalves m o n).length = n := by
  induction n generalizing o with
  | zero => rfl
  | succ n ih => simp [getHalves, ih]

/-! ## Host reads -/

/-- A read of a mapped place gives the value the place reads as. -/
theorem readGives_of {s : State} {a : HostAddr} {p : Place} {v : BitVec 64} (hp : placeAt s.cfg a = some p)
    (hv : ∀ inp, readPlace p { s with input := inp } = .ok v) : ReadGives s a v := by
  intro rest
  unfold step
  simp only [runAction, hp, hv]

/-! ## The parser -/

/-- The dispatch of a frame always answers a next state: it emits a record or an unknown type, or it is an error. -/
theorem dispatchFrame_cases (f : List Byte) (s : State) :
    (parseBody f = .tooShort ∧ dispatchFrame f s = .next (parserError .shortFrame s)) ∨
    (parseBody f ≠ .tooShort ∧ ∃ e, dispatchFrame f s = .next (emit e s)) := by
  unfold dispatchFrame
  cases parseBody f
  case tooShort => exact .inl ⟨rfl, rfl⟩
  all_goals exact .inr ⟨by simp, _, rfl⟩

/-- The length byte's step: the frame body begins, or the length is an error. -/
theorem consumeLengthLsb_cases (d : Byte) (s : State) :
    (lengthOk (s.par.flen + d.setWidth 16) = true ∧ consumeLengthLsb d s =
      .next { s with par := { s.par with flen := s.par.flen + d.setWidth 16, idx := 0, pstate := .frameData } }) ∨
    (lengthOk (s.par.flen + d.setWidth 16) = false ∧ consumeLengthLsb d s =
      .next (parserError .length { s with par := { s.par with flen := s.par.flen + d.setWidth 16 } })) := by
  unfold consumeLengthLsb
  cases h : lengthOk (s.par.flen + d.setWidth 16)
  · exact .inr ⟨rfl, by simp [h]⟩
  · exact .inl ⟨rfl, by simp [h]⟩

/-- The body byte's step, when it answers a next state: the byte is stored, summed and counted. -/
theorem consumeFrameData_next {d : Byte} {s t : State} (h : consumeFrameData d s = .next t) :
    s.par.idx.toNat < 256 ∧ t = { s with par := { s.par with
      fbuf := Memory.write s.par.idx.toNat d s.par.fbuf
      sum := s.par.sum + d
      idx := s.par.idx + 1
      pstate := if (s.par.idx + 1).toNat = s.par.flen.toNat then .checksum else .frameData } } := by
  unfold consumeFrameData at h
  split at h
  · rename_i hi
    cases h
    exact ⟨hi, rfl⟩
  · cases h

/-- The checksum byte's step: a checksum error, or the dispatch of the received body. -/
theorem consumeChecksum_next {d : Byte} {s t : State} (h : consumeChecksum d s = .next t) :
    (s.par.sum + d ≠ 0xFF ∧
      t = parserError .checksum { s with par := { s.par with sum := s.par.sum + d, pstate := .waitingForStart } }) ∨
    (s.par.sum + d = 0xFF ∧ ∃ f, readBytes .fbuf s.par.fbuf 0 s.par.flen.toNat = .ok f ∧
      dispatchFrame f { s with par := { s.par with sum := s.par.sum + d, pstate := .waitingForStart } } = .next t) := by
  unfold consumeChecksum at h
  by_cases hs : s.par.sum + d = 0xFF
  · refine .inr ⟨hs, ?_⟩
    simp only [checksumOk, hs, beq_self_eq_true, if_true] at h
    split at h
    · rename_i f hf
      exact ⟨f, hf, by rw [hs]; exact h⟩
    · cases h
  · refine .inl ⟨hs, ?_⟩
    simp only [checksumOk, beq_iff_eq, if_neg hs] at h
    cases h
    rfl

/-- The escape prefix: idle, latch, or the data byte 0x5D. -/
theorem execRxEscape_cases (s : State) :
    (s.par.pstate = .waitingForStart ∧ execRxEscape s = .next s) ∨
    (s.par.pstate ≠ .waitingForStart ∧ s.par.esc = false ∧ execRxEscape s = .next (setEsc true s)) ∨
    (s.par.pstate ≠ .waitingForStart ∧ s.par.esc = true ∧ s.cfg.escRepeat = .latch ∧ execRxEscape s = .next s) ∨
    (s.par.pstate ≠ .waitingForStart ∧ s.par.esc = true ∧ s.cfg.escRepeat = .data ∧
      execRxEscape s = consume 0x5D (setEsc false s)) := by
  unfold execRxEscape
  by_cases hp : s.par.pstate = .waitingForStart
  · exact .inl ⟨hp, by rw [if_pos hp]⟩
  rw [if_neg hp]
  cases he : s.par.esc
  · exact .inr (.inl ⟨hp, rfl, rfl⟩)
  · cases hr : s.cfg.escRepeat
    · exact .inr (.inr (.inr ⟨hp, rfl, rfl, rfl⟩))
    · exact .inr (.inr (.inl ⟨hp, rfl, rfl, rfl⟩))

end Sys2Proof.Machine
end

