-- ==== Sys2Proof/Laws/PerInstr.lean ====
section
/-! SUPPORT. Laws stated per instruction. `EncodesRow`: the encoding of an instruction has the selecting bits of its
row in the opcode table (30_encoding R97). -/

namespace Sys2Proof.Laws.EncodesRow

open Sys2Proof Sys2Proof.Machine

/-- The number a row's `match` and `mask` apply to (R97): version and tag together for a message, else byte 0. -/
def selector (f : Format) (bytes : List Byte) : Nat :=
  match f with
  | .fragMsg => (byteAt bytes 0).toNat * 256 + (byteAt bytes 1).toNat
  | .cmd => (byteAt bytes 0).toNat
  | .apiFrame => (byteAt bytes 0).toNat
  | .rxByte => (byteAt bytes 0).toNat

/-- A row's `match` and `mask`, as the opcode table lists them. -/
def row : Instr → Nat × Nat
  | .crcCompute => (0xC1, 0xFF)
  | .crcVerify => (0xC2, 0xFF)
  | .crcAppend => (0xC3, 0xFF)
  | .fragEncHdr => (0xF1, 0xFF)
  | .fragEncData => (0xF2, 0xFF)
  | .fragBuildNack => (0xF3, 0xFF)
  | .fragBuildDone => (0xF4, 0xFF)
  | .fragDecHdr => (0xF5, 0xFF)
  | .fragParseData => (0xF6, 0xFF)
  | .fragParseNack => (0xF7, 0xFF)
  | .fragParseDone => (0xF8, 0xFF)
  | .fragParse => (0xF9, 0xFF)
  | .apiBuildTx => (0xA1, 0xFF)
  | .apiBuildTxAuto => (0xA2, 0xFF)
  | .apiBuildAt => (0xA3, 0xFF)
  | .apiBuildAtAuto => (0xA4, 0xFF)
  | .sysReset => (0xE0, 0xFF)
  | .frameTxRequest _ _ _ _ _ _ => (0x10, 0xFF)
  | .frameAtCommand _ _ _ => (0x08, 0xFF)
  | .frameRxPacket _ _ _ _ => (0x90, 0xFF)
  | .frameExplicitRx _ _ _ _ _ _ _ _ => (0x91, 0xFF)
  | .frameTxStatus _ _ _ _ _ => (0x8B, 0xFF)
  | .frameAtResponse _ _ _ _ => (0x88, 0xFF)
  | .msgData _ _ _ _ _ _ => (0x0101, 0xFFFF)
  | .msgNack _ _ _ => (0x0102, 0xFFFF)
  | .msgDone _ _ => (0x0103, 0xFFFF)
  | .rxStart => (0x7E, 0xFF)
  | .rxEscape => (0x7D, 0xFF)
  | .rxByte _ => (0x00, 0x00)

/-- The selecting bits of the instruction's encoding are its row's. -/
def Statement (i : Instr) : Prop := i.wellFormed = true → selector i.format (encode i) &&& (row i).2 = (row i).1

theorem crcCompute : Statement .crcCompute := fun _ => rfl
theorem crcVerify : Statement .crcVerify := fun _ => rfl
theorem crcAppend : Statement .crcAppend := fun _ => rfl
theorem fragEncHdr : Statement .fragEncHdr := fun _ => rfl
theorem fragEncData : Statement .fragEncData := fun _ => rfl
theorem fragBuildNack : Statement .fragBuildNack := fun _ => rfl
theorem fragBuildDone : Statement .fragBuildDone := fun _ => rfl
theorem fragDecHdr : Statement .fragDecHdr := fun _ => rfl
theorem fragParseData : Statement .fragParseData := fun _ => rfl
theorem fragParseNack : Statement .fragParseNack := fun _ => rfl
theorem fragParseDone : Statement .fragParseDone := fun _ => rfl
theorem fragParse : Statement .fragParse := fun _ => rfl
theorem apiBuildTx : Statement .apiBuildTx := fun _ => rfl
theorem apiBuildTxAuto : Statement .apiBuildTxAuto := fun _ => rfl
theorem apiBuildAt : Statement .apiBuildAt := fun _ => rfl
theorem apiBuildAtAuto : Statement .apiBuildAtAuto := fun _ => rfl
theorem sysReset : Statement .sysReset := fun _ => rfl
theorem frameTxRequest (a : Byte) (b : BitVec 64) (c : Half) (d e : Byte) (f : List Byte) :
    Statement (.frameTxRequest a b c d e f) := fun _ => by
  show Config.ftTxRequest.toNat &&& 0xFF = 0x10
  decide
theorem frameAtCommand (a : Byte) (b : Half) (c : List Byte) :
    Statement (.frameAtCommand a b c) := fun _ => by
  show Config.ftAtCommand.toNat &&& 0xFF = 0x08
  decide
theorem frameRxPacket (a : BitVec 64) (b : Half) (c : Byte) (d : List Byte) :
    Statement (.frameRxPacket a b c d) := fun _ => by
  show Config.ftRxPacket.toNat &&& 0xFF = 0x90
  decide
theorem frameExplicitRx (a : BitVec 64) (b : Half) (c d : Byte) (e f : Half) (g : Byte) (h : List Byte) :
    Statement (.frameExplicitRx a b c d e f g h) := fun _ => by
  show Config.ftExplicitRx.toNat &&& 0xFF = 0x91
  decide
theorem frameTxStatus (a : Byte) (b : Half) (c d e : Byte) :
    Statement (.frameTxStatus a b c d e) := fun _ => by
  show Config.ftTxStatus.toNat &&& 0xFF = 0x8B
  decide
theorem frameAtResponse (a : Byte) (b : Half) (c : Byte) (d : List Byte) :
    Statement (.frameAtResponse a b c d) := fun _ => by
  show Config.ftAtResponse.toNat &&& 0xFF = 0x88
  decide
theorem msgData (a : Half) (b : BitVec 32) (c d : Half) (e : List Byte) (f : Half) :
    Statement (.msgData a b c d e f) := fun _ => by
  show (Config.protoVersion.toNat * 256 + Config.typeData.toNat) &&& 0xFFFF = 0x0101
  decide
theorem msgNack (a : Half) (b : List Half) (c : Half) :
    Statement (.msgNack a b c) := fun _ => by
  show (Config.protoVersion.toNat * 256 + Config.typeNack.toNat) &&& 0xFFFF = 0x0102
  decide
theorem msgDone (a b : Half) :
    Statement (.msgDone a b) := fun _ => by
  show (Config.protoVersion.toNat * 256 + Config.typeDone.toNat) &&& 0xFFFF = 0x0103
  decide
theorem rxStart : Statement .rxStart := fun _ => rfl
theorem rxEscape : Statement .rxEscape := fun _ => rfl
theorem rxByte (b : Byte) : Statement (.rxByte b) := fun _ => Nat.and_zero _

end Sys2Proof.Laws.EncodesRow
end

