-- ==== Sys2Proof/Tests/Slice0.lean ====
section
/-! SUPPORT. Tests. Expected values come from the spec's vectors (95_test_vectors, V<n>), its worked examples (the
Example of rule R<n>), or a hand calculation from a layout (30_encoding), as each comment says. The last part shows,
for every statement with hypotheses, a concrete state and operands that meet them. -/

namespace Sys2Proof.Tests

-- One theorem after another: the kernel evaluations below would otherwise each hold a thread.
set_option Elab.async false

open Sys2Proof Sys2Proof.Machine

/-! ## Helpers -/

/-- The state after reset with `s` loaded: `LD s` (R96). -/
def loaded (s : List Byte) : State :=
  { State.reset with cmd := { State.reset.cmd with ibuf := Memory.ofBytes 0 s, iLen := BitVec.ofNat 16 s.length } }

/-- The next state of a result, if it has one. -/
def after : Result → Option State
  | .next t => some t
  | .fault _ => none
  | .refused _ => none

/-- `OBUF[0..OLEN)`, `OK` and `ERR` after a result. -/
def sent (r : Result) : Option (List Byte × Bool × Byte) :=
  (after r).map fun t => (frameBytes t.cmd.obuf t.cmd.oLen.toNat, t.cmd.ok, t.cmd.err)

/-- `OK`, `ERR` and `CNT_CRC_FAIL` after a result. -/
def verdict (r : Result) : Option (Bool × Byte × Nat) :=
  (after r).map fun t => (t.cmd.ok, t.cmd.err, t.cmd.cntCrcFail)

/-- What was output. -/
def given (r : Result) : Option (List Output) := (after r).map fun t => t.outputs

/-- A parser in a state, with `k` in `flen`, the body bytes `f` received, and the latch. -/
def parsing (p : PState) (k : Nat) (f : List Byte) (esc : Bool) : State :=
  { State.reset with par := { State.reset.par with
      pstate := p, flen := BitVec.ofNat 16 k, idx := BitVec.ofNat 9 f.length, sum := sum8 f,
      fbuf := Memory.ofBytes 0 f, esc := esc } }

/-- The same state with another value of `ESC_REPEAT`. -/
def withRepeat (r : EscRepeat) (s : State) : State := { s with cfg := { s.cfg with escRepeat := r } }

/-- The same state with the host's next transactions. -/
def pending (acts : List HostAction) (s : State) : State := { s with input := acts }

/-- The operand registers of a fragment (R21). -/
def withFragment (id : Half) (tot : BitVec 32) (ix cnt : Half) (len : Byte) (s : State) : State :=
  { s with cmd := { s.cmd with msgId := id, totLen := tot, fragIdx := ix, fragCnt := cnt, payLen := len } }

/-- The operand registers of the R157 example, and the frame id. -/
def withRadio (fid : Byte) (s : State) : State :=
  { s with cmd := { s.cmd with fid := fid, addr64 := 0x0013A20040000001, addr16 := 0xFFFE } }

/-- The operand registers of an AT command. -/
def withAt (fid : Byte) (code : Half) (s : State) : State := { s with cmd := { s.cmd with fid := fid, atCode := code } }

/-- "123456789" (V5). -/
def nine : List Byte := [0x31, 0x32, 0x33, 0x34, 0x35, 0x36, 0x37, 0x38, 0x39]

/-- "hello" (V6). -/
def hello : List Byte := [0x68, 0x65, 0x6C, 0x6C, 0x6F]

/-- The S1 fragment (R124, V21). -/
def fragS1 : List Byte :=
  [0x01, 0x01, 0x00, 0x01, 0x00, 0x00, 0x00, 0x05, 0x00, 0x00, 0x00, 0x01, 0x05, 0x68, 0x65, 0x6C, 0x6C, 0x6F, 0xBA, 0x88]

/-- The NACK of V27. -/
def nackV27 : List Byte := [0x01, 0x02, 0x00, 0x01, 0x02, 0x00, 0x01, 0x00, 0x02, 0x6A, 0xA6]

/-- The DONE of R128. -/
def doneOne : List Byte := [0x01, 0x03, 0x00, 0x01, 0xBB, 0x05]

/-! ## WellFormed refuses an ill-formed term for each check -/

theorem test_wf_data_byte_delimiter : (Instr.rxByte 0x7E).wellFormed = false := by decide
theorem test_wf_data_byte_escape : (Instr.rxByte 0x7D).wellFormed = false := by decide
theorem test_wf_body_tx : (Instr.frameTxRequest 0 0 0 0 0 (List.replicate 243 0)).wellFormed = false := by decide +kernel
theorem test_wf_body_at : (Instr.frameAtCommand 0 0 (List.replicate 253 0)).wellFormed = false := by decide +kernel
theorem test_wf_body_rx : (Instr.frameRxPacket 0 0 0 (List.replicate 245 0)).wellFormed = false := by decide +kernel
theorem test_wf_body_explicit :
    (Instr.frameExplicitRx 0 0 0 0 0 0 0 (List.replicate 239 0)).wellFormed = false := by decide +kernel
theorem test_wf_body_response : (Instr.frameAtResponse 0 0 0 (List.replicate 252 0)).wellFormed = false := by
  decide +kernel
theorem test_wf_body_longest : (Instr.frameAtCommand 0 0 (List.replicate 252 0)).wellFormed = true := by decide +kernel
theorem test_wf_payload : (Instr.msgData 0 0 0 0 (List.replicate 256 0) 0).wellFormed = false := by decide +kernel
theorem test_wf_indices : (Instr.msgNack 0 (List.replicate 256 0) 0).wellFormed = false := by decide +kernel

/-! ## Decoding: the command codes of R72, written out -/

theorem test_decode_crcCompute : decode .cmd [0xC1] = .ok .crcCompute := by decide
theorem test_decode_crcVerify : decode .cmd [0xC2] = .ok .crcVerify := by decide
theorem test_decode_crcAppend : decode .cmd [0xC3] = .ok .crcAppend := by decide
theorem test_decode_fragEncHdr : decode .cmd [0xF1] = .ok .fragEncHdr := by decide
theorem test_decode_fragEncData : decode .cmd [0xF2] = .ok .fragEncData := by decide
theorem test_decode_fragBuildNack : decode .cmd [0xF3] = .ok .fragBuildNack := by decide
theorem test_decode_fragBuildDone : decode .cmd [0xF4] = .ok .fragBuildDone := by decide
theorem test_decode_fragDecHdr : decode .cmd [0xF5] = .ok .fragDecHdr := by decide
theorem test_decode_fragParseData : decode .cmd [0xF6] = .ok .fragParseData := by decide
theorem test_decode_fragParseNack : decode .cmd [0xF7] = .ok .fragParseNack := by decide
theorem test_decode_fragParseDone : decode .cmd [0xF8] = .ok .fragParseDone := by decide
theorem test_decode_fragParse : decode .cmd [0xF9] = .ok .fragParse := by decide
theorem test_decode_apiBuildTx : decode .cmd [0xA1] = .ok .apiBuildTx := by decide
theorem test_decode_apiBuildTxAuto : decode .cmd [0xA2] = .ok .apiBuildTxAuto := by decide
theorem test_decode_apiBuildAt : decode .cmd [0xA3] = .ok .apiBuildAt := by decide
theorem test_decode_apiBuildAtAuto : decode .cmd [0xA4] = .ok .apiBuildAtAuto := by decide
theorem test_decode_sysReset : decode .cmd [0xE0] = .ok .sysReset := by decide

/-- V70: four values that are no code. -/
theorem test_decode_illegal :
    decode .cmd [0x00] = .error .illegalCommand ∧ decode .cmd [0x7E] = .error .illegalCommand ∧
    decode .cmd [0xFF] = .error .illegalCommand ∧ decode .cmd [0xC0] = .error .illegalCommand := by decide

/-- R91: 239 of the 256 values are no code. -/
theorem test_decode_illegal_count :
    ((List.range 256).filter fun c => (decodeCmd (BitVec.ofNat 8 c)).toOption.isNone).length = 239 := by decide +kernel

/-! ## Decoding: frame bodies (the wire forms of 95_test_vectors without framing and escapes) -/

/-- V38. -/
theorem test_decode_frameTxRequest :
    decode .apiFrame ([0x10, 0x00, 0x00, 0x13, 0xA2, 0x00, 0x40, 0x00, 0x00, 0x01, 0xFF, 0xFE, 0x00, 0x00] ++ fragS1) =
      .ok (.frameTxRequest 0x00 0x0013A20040000001 0xFFFE 0x00 0x00 fragS1) := by decide

/-- V32: frame id 0x7E, AT code 0x7D11, parameter 13. -/
theorem test_decode_frameAtCommand :
    decode .apiFrame [0x08, 0x7E, 0x7D, 0x11, 0x13] = .ok (.frameAtCommand 0x7E 0x7D11 [0x13]) := by decide

/-- V53. -/
theorem test_decode_frameRxPacket :
    decode .apiFrame [0x90, 0x00, 0x13, 0xA2, 0x00, 0x40, 0x00, 0x00, 0x02, 0xFF, 0xFE, 0x01,
      0x01, 0x03, 0x00, 0x01, 0xBB, 0x05] =
      .ok (.frameRxPacket 0x0013A20040000002 0xFFFE 0x01 [0x01, 0x03, 0x00, 0x01, 0xBB, 0x05]) := by decide

/-- V52. -/
theorem test_decode_frameExplicitRx :
    decode .apiFrame [0x91, 0x00, 0x13, 0xA2, 0x00, 0x40, 0x00, 0x00, 0x02, 0xFF, 0xFE, 0xE8, 0xE8, 0x00, 0x11,
      0xC1, 0x05, 0x01, 0x01, 0x03, 0x00, 0x01, 0xBB, 0x05] =
      .ok (.frameExplicitRx 0x0013A20040000002 0xFFFE 0xE8 0xE8 0x0011 0xC105 0x01
        [0x01, 0x03, 0x00, 0x01, 0xBB, 0x05]) := by decide

/-- R81 with five different bytes, and an eighth byte that is ignored (V62). -/
theorem test_decode_frameTxStatus :
    decode .apiFrame [0x8B, 0x01, 0xFF, 0xFE, 0x02, 0x03, 0x04, 0xAA] = .ok (.frameTxStatus 0x01 0xFFFE 0x02 0x03 0x04) := by
  decide

/-- V61. -/
theorem test_decode_frameAtResponse :
    decode .apiFrame [0x88, 0x01, 0x53, 0x48, 0x00, 0x00, 0x13, 0xA2, 0x00] =
      .ok (.frameAtResponse 0x01 0x5348 0x00 [0x00, 0x13, 0xA2, 0x00]) := by decide

/-- V55 to V60 and V63: a short body of each known type, and a type that is none of the six. -/
theorem test_decode_frame_errors :
    decode .apiFrame (0x90 :: List.replicate 10 0) = .error .shortBody ∧
    decode .apiFrame (0x91 :: List.replicate 16 0) = .error .shortBody ∧
    decode .apiFrame [0x8B, 0x01, 0x00] = .error .shortBody ∧
    decode .apiFrame [0x88, 0x01, 0x53, 0x48] = .error .shortBody ∧
    decode .apiFrame [0x08, 0x01, 0x53] = .error .shortBody ∧
    decode .apiFrame (0x10 :: List.replicate 12 0) = .error .shortBody ∧
    decode .apiFrame [0x8A, 0x06] = .error .unknownFrameType ∧ decode .apiFrame [] = .error .noSelector := by decide

/-! ## Decoding: messages and raw bytes -/

/-- V17: id 0x1234, total 95, fragment 3 of 4. -/
theorem test_decode_msgData :
    decode .fragMsg [0x01, 0x01, 0x12, 0x34, 0x00, 0x00, 0x00, 0x5F, 0x00, 0x03, 0x00, 0x04, 0x05,
      0x7E, 0x7D, 0x11, 0x13, 0x00, 0x30, 0xC1] =
      .ok (.msgData 0x1234 95 3 4 [0x7E, 0x7D, 0x11, 0x13, 0x00] 0x30C1) := by decide

/-- V19. -/
theorem test_decode_msgNack :
    decode .fragMsg [0x01, 0x02, 0xBE, 0xEF, 0x03, 0x00, 0x00, 0x01, 0x55, 0xFF, 0xFF, 0x45, 0xF7] =
      .ok (.msgNack 0xBEEF [0x0000, 0x0155, 0xFFFF] 0x45F7) := by decide

/-- V20. -/
theorem test_decode_msgDone : decode .fragMsg [0x01, 0x03, 0xFF, 0xFF, 0xB6, 0x2B] = .ok (.msgDone 0xFFFF 0xB62B) := by
  decide

/-- V23, V30, V25, V28, V29 and the first bytes of V27: every way a message is no row of FRAGMSG. -/
theorem test_decode_msg_errors :
    decode .fragMsg [0x02, 0x03, 0x00, 0x01, 0xBB, 0x05] = .error .unknownVersion ∧
    decode .fragMsg [0x01, 0x07, 0x00, 0x01, 0x00, 0x00] = .error .unknownTag ∧
    decode .fragMsg [0x01, 0x02, 0x00, 0x01, 0x01, 0x00, 0x01, 0x00, 0x02, 0x84, 0x74] = .error .badLength ∧
    decode .fragMsg [0x01, 0x03, 0x00, 0x01, 0x00, 0x13, 0xB0] = .error .badLength ∧
    decode .fragMsg [0x01, 0x02, 0x00, 0x01, 0x02, 0x00] = .error .shortMessage ∧
    decode .fragMsg [0x01] = .error .noSelector := by decide

/-- R89: the three classes of a raw byte. -/
theorem test_decode_rxStart : decode .rxByte [0x7E] = .ok .rxStart := by decide
theorem test_decode_rxEscape : decode .rxByte [0x7D] = .ok .rxEscape := by decide
theorem test_decode_rxByte : decode .rxByte [0x13] = .ok (.rxByte 0x13) := by decide

/-! ## The opcode table's words -/

/-- Rows of each format: the first byte in bits 7..0; a row of FRAGMSG is `byte0 · 256 + byte1` (R97). -/
theorem test_table_words :
    decodeTableWord 8 0xC1 = some .crcCompute ∧ decodeTableWord 8 0xE0 = some .sysReset ∧
    decodeTableWord 8 0x08 = some (.frameAtCommand 0 0 []) ∧
    decodeTableWord 56 0x04030201FF8B = some (.frameTxStatus 0xFF 0x0102 0x03 0x04 0x00) ∧
    decodeTableWord 16 0x0103 = some (.msgDone 0 0) ∧ decodeTableWord 16 0x0101 = some (.msgData 0 0 0 0 [] 0) ∧
    decodeTableWord 8 0x7E = some .rxStart ∧ decodeTableWord 8 0x00 = some (.rxByte 0) := by decide

/-- The placed word runs: a frame's event, a message's outcome (a zero CRC field is wrong), a raw byte. -/
theorem test_fetch_words :
    given (step (State.reset.withFetchWord 8 0x08)) = some [.event (.atCommand 0 0 [])] ∧
    verdict (step (State.reset.withFetchWord 16 0x0103)) = some (false, 0x03, 1) ∧
    verdict (step (State.reset.withFetchWord 8 0xC1)) = some (true, 0x00, 0) ∧
    (after (step (State.reset.withFetchWord 8 0x7E))).map (fun t => t.par.pstate) = some .lengthMsb := by decide +kernel

/-! ## One step of each instruction -/

/-- V7 (its two short strings) and V1 to V4. -/
theorem test_crc16 :
    crc16 [0x00, 0x00, 0x00, 0x00] = 0x84C0 ∧ crc16 [0xFF, 0xFF] = 0x0000 ∧ crc16 [] = 0xFFFF ∧ crc16 [0x00] = 0xE1F0 ∧
    crc16 [0xFF] = 0xFF00 ∧ crc16 [0x41] = 0xB915 := by decide +kernel

/-- V5. -/
theorem test_crcCompute : (after (exec .crcCompute (loaded nine))).map (fun t => (t.cmd.crc, t.cmd.ok)) =
    some (0x29B1, true) := by decide +kernel

/-- V11 and V9. -/
theorem test_crcVerify :
    verdict (exec .crcVerify (loaded (hello ++ [0xD2, 0x6E]))) = some (true, 0x00, 0) ∧
    verdict (exec .crcVerify (loaded [0x00])) = some (false, 0x02, 0) := by decide +kernel

/-- V10: a false answer counts nothing. -/
theorem test_crcVerify_false : verdict (exec .crcVerify (loaded [0x1D, 0x0F])) = some (false, 0x03, 0) := by
  decide +kernel

/-- R107's example. -/
theorem test_crcAppend : sent (exec .crcAppend (loaded hello)) = some (hello ++ [0xD2, 0x6E], true, 0x00) := by
  decide +kernel

/-- V15. -/
theorem test_fragEncHdr : sent (exec .fragEncHdr (withFragment 0xABCD 0x2800 0x0155 0x0156 30 State.reset)) =
    some ([0x01, 0x01, 0xAB, 0xCD, 0x00, 0x00, 0x28, 0x00, 0x01, 0x55, 0x01, 0x56, 0x1E], true, 0x00) := by
  decide +kernel

/-- V17 (PAYLEN is not read). -/
theorem test_fragEncData :
    sent (exec .fragEncData (withFragment 0x1234 95 3 4 0x99 (loaded [0x7E, 0x7D, 0x11, 0x13, 0x00]))) =
    some ([0x01, 0x01, 0x12, 0x34, 0x00, 0x00, 0x00, 0x5F, 0x00, 0x03, 0x00, 0x04, 0x05,
      0x7E, 0x7D, 0x11, 0x13, 0x00, 0x30, 0xC1], true, 0x00) := by decide +kernel

/-- V18. -/
theorem test_fragEncData_range : verdict (exec .fragEncData (loaded (List.replicate 256 0))) = some (false, 0x07, 0) := by
  decide +kernel

/-- V19. -/
theorem test_fragBuildNack :
    sent (exec .fragBuildNack { State.reset with cmd := { State.reset.cmd with
      msgId := 0xBEEF, nCnt := 3, idxFile := [(1, 0x0155), (2, 0xFFFF)] } }) =
    some ([0x01, 0x02, 0xBE, 0xEF, 0x03, 0x00, 0x00, 0x01, 0x55, 0xFF, 0xFF, 0x45, 0xF7], true, 0x00) := by
  decide +kernel

/-- V20. -/
theorem test_fragBuildDone : sent (exec .fragBuildDone (withFragment 0xFFFF 0 0 0 0 State.reset)) =
    some ([0x01, 0x03, 0xFF, 0xFF, 0xB6, 0x2B], true, 0x00) := by decide +kernel

/-- R130: a header with version 2 decodes, and a 14th byte is ignored. -/
theorem test_fragDecHdr :
    (after (exec .fragDecHdr (loaded [0x02, 0x01, 0x00, 0x07, 0x00, 0x00, 0x28, 0x00, 0x01, 0x55, 0x01, 0x56, 0x1E, 0xFF]))).map
      (fun t => (t.cmd.ver, t.cmd.msgId, t.cmd.totLen, t.cmd.fragIdx, t.cmd.fragCnt, t.cmd.payLen)) =
    some (0x02, 0x0007, 0x2800, 0x0155, 0x0156, 0x1E) := by decide +kernel

/-- V21. -/
theorem test_fragParseData :
    (after (exec .fragParseData (loaded fragS1))).map (fun t => (t.cmd.msgId, t.cmd.totLen, t.cmd.fragCnt, t.cmd.crc)) =
      some (1, 5, 1, 0xBA88) ∧
    sent (exec .fragParseData (loaded fragS1)) = some (hello, true, 0x00) := by decide +kernel

/-- V22 to V25. -/
theorem test_fragParseData_errors :
    verdict (exec .fragParseData (loaded (fragS1.take 14))) = some (false, 0x02, 0) ∧
    verdict (exec .fragParseData (loaded ([0x02] ++ (fragS1.drop 1).take 17 ++ [0xBA, 0xFA]))) = some (false, 0x04, 0) ∧
    verdict (exec .fragParseData (loaded ([0x01, 0x02] ++ (fragS1.drop 2).take 16 ++ [0x8B, 0xAE]))) = some (false, 0x05, 0) ∧
    verdict (exec .fragParseData (loaded (fragS1.take 12 ++ [0x04] ++ hello ++ [0xFF, 0x28]))) = some (false, 0x06, 0) := by
  decide +kernel

/-- V27: the entries after the list keep their values. -/
theorem test_fragParseNack :
    (after (exec .fragParseNack { loaded nackV27 with cmd := { (loaded nackV27).cmd with idxFile := [(0, 9), (2, 8)] } })).map
      (fun t => (t.cmd.msgId, t.cmd.nCnt, t.cmd.idxFile, t.cmd.crc)) = some (1, 2, [(0, 1), (1, 2), (2, 8)], 0x6AA6) := by
  decide +kernel

/-- V28. -/
theorem test_fragParseNack_length :
    verdict (exec .fragParseNack (loaded [0x01, 0x02, 0x00, 0x01, 0x01, 0x00, 0x01, 0x00, 0x02, 0x84, 0x74])) =
      some (false, 0x06, 0) := by decide +kernel

/-- R137's example, and V26: the CRC is tested before the version. -/
theorem test_fragParseDone :
    (after (exec .fragParseDone (loaded doneOne))).map (fun t => (t.cmd.type, t.cmd.msgId, t.cmd.crc)) =
      some (0x03, 1, 0xBB05) ∧
    verdict (exec .fragParseDone (loaded [0x02, 0x03, 0x00, 0x01, 0xBB, 0x05])) = some (false, 0x03, 1) := by
  decide +kernel

/-- V29. -/
theorem test_fragParseDone_length :
    verdict (exec .fragParseDone (loaded [0x01, 0x03, 0x00, 0x01, 0x00, 0x13, 0xB0])) = some (false, 0x06, 0) := by
  decide +kernel

/-- V30: an unknown tag counts nothing, and byte 1 = 03 is taken for a DONE. -/
theorem test_fragParse :
    verdict (exec .fragParse (loaded [0x01, 0x07, 0x00, 0x01, 0x00, 0x00])) = some (false, 0x05, 0) ∧
    verdict (exec .fragParse (loaded ([0x01, 0x03] ++ fragS1.drop 2))) = some (false, 0x03, 1) ∧
    verdict (exec .fragParse (loaded [0x01])) = some (false, 0x02, 0) := by decide +kernel

/-- R139's example. -/
theorem test_fragParse_done : (after (exec .fragParse (loaded doneOne))).map (fun t => (t.cmd.ok, t.cmd.type)) =
    some (true, 0x03) := by decide +kernel

/-- V38. -/
theorem test_apiBuildTx : sent (exec .apiBuildTx (withRadio 0 (loaded fragS1))) =
    some ([0x7E, 0x00, 0x22, 0x10, 0x00, 0x00, 0x7D, 0x33, 0xA2, 0x00, 0x40, 0x00, 0x00, 0x01, 0xFF, 0xFE, 0x00, 0x00] ++
      fragS1 ++ [0x98], true, 0x00) := by decide +kernel

/-- V39: the broadcast address and the unknown 16-bit address (R6). -/
theorem test_apiBuildTx_broadcast :
    sent (exec .apiBuildTx { loaded doneOne with cmd := { (loaded doneOne).cmd with
      addr64 := Config.broadcastAddr64, addr16 := Config.unknownAddr16 } }) =
    some ([0x7E, 0x00, 0x14, 0x10, 0x00, 0x00, 0x00, 0x00, 0x00, 0x00, 0x00, 0xFF, 0xFF, 0xFF, 0xFE, 0x00, 0x00] ++
      doneOne ++ [0x2F], true, 0x00) := by decide +kernel

/-- R160's example: the frame id 1 and the checksum 0x97. -/
theorem test_apiBuildTxAuto : sent (exec .apiBuildTxAuto (withRadio 0 (loaded fragS1))) =
    some ([0x7E, 0x00, 0x22, 0x10, 0x01, 0x00, 0x7D, 0x33, 0xA2, 0x00, 0x40, 0x00, 0x00, 0x01, 0xFF, 0xFE, 0x00, 0x00] ++
      fragS1 ++ [0x97], true, 0x00) := by decide +kernel

/-- R160: afterwards `FID = 1` and `NEXT_FID = 2`. -/
theorem test_apiBuildTxAuto_ids :
    (after (exec .apiBuildTxAuto (withRadio 0 (loaded fragS1)))).map (fun t => (t.cmd.fid, t.cmd.nextFid)) = some (1, 2) := by
  decide +kernel

/-- V32 and V33 (an escaped length byte). -/
theorem test_apiBuildAt :
    sent (exec .apiBuildAt (withAt 0x7E 0x7D11 (loaded [0x13]))) =
      some ([0x7E, 0x00, 0x05, 0x08, 0x7D, 0x5E, 0x7D, 0x5D, 0x7D, 0x31, 0x7D, 0x33, 0xD8], true, 0x00) ∧
    sent (exec .apiBuildAt (withAt 1 0x4E49 (loaded [0x41, 0x42, 0x43, 0x44, 0x45, 0x46, 0x47, 0x48, 0x49, 0x4A, 0x4B,
      0x4C, 0x4D]))) = some ([0x7E, 0x00, 0x7D, 0x31, 0x08, 0x01, 0x4E, 0x49, 0x41, 0x42, 0x43, 0x44, 0x45, 0x46, 0x47,
      0x48, 0x49, 0x4A, 0x4B, 0x4C, 0x4D, 0xC4], true, 0x00) := by decide +kernel

/-- V35: an escaped checksum. -/
theorem test_apiBuildAt_checksum : sent (exec .apiBuildAt (withAt 1 0x4430 (loaded [0x04]))) =
    some ([0x7E, 0x00, 0x05, 0x08, 0x01, 0x44, 0x30, 0x04, 0x7D, 0x5E], true, 0x00) := by decide +kernel

/-- Section 2.3 of the vectors: the 255th id wraps to 1. -/
theorem test_apiBuildAtAuto :
    sent (exec .apiBuildAtAuto (withAt 0 0x5348 { State.reset with cmd := { State.reset.cmd with nextFid := 0xFF } })) =
      some ([0x7E, 0x00, 0x04, 0x08, 0xFF, 0x53, 0x48, 0x5D], true, 0x00) ∧
    (after (exec .apiBuildAtAuto (withAt 0 0x5348 { State.reset with cmd := { State.reset.cmd with nextFid := 0xFF } }))).map
      (fun t => (t.cmd.fid, t.cmd.nextFid)) = some (0xFF, 1) := by decide +kernel

/-- R159: a non-zero `FID` does not advance the generator. -/
theorem test_apiBuildAtAuto_given :
    (after (exec .apiBuildAtAuto (withAt 5 0x5348 State.reset))).map (fun t => (t.cmd.fid, t.cmd.nextFid)) = some (5, 1) := by
  decide +kernel

/-- V71: a frame in progress is dropped. -/
theorem test_sysReset : after (exec .sysReset (parsing .frameData 4 [0x08] true)) = some State.reset := by decide +kernel

/-- R190 to R195: the record of each frame (the fields of V38, V41, V53, V52, V46, V61). -/
theorem test_frameTxRequest : given (exec (.frameTxRequest 0 0x0013A20040000001 0xFFFE 0 0 fragS1) State.reset) =
    some [.event (.txRequest 0 0x0013A20040000001 0xFFFE 0 0 fragS1)] := by decide
theorem test_frameAtCommand : given (exec (.frameAtCommand 1 0x5348 []) State.reset) =
    some [.event (.atCommand 1 0x5348 [])] := by decide
theorem test_frameRxPacket : given (exec (.frameRxPacket 0x0013A20040000002 0xFFFE 1 doneOne) State.reset) =
    some [.event (.rxPacket 0x0013A20040000002 0xFFFE 1 doneOne none)] := by decide
theorem test_frameExplicitRx :
    given (exec (.frameExplicitRx 0x0013A20040000002 0xFFFE 0xE8 0xE7 0x0011 0xC105 1 doneOne) State.reset) =
    some [.event (.rxPacket 0x0013A20040000002 0xFFFE 1 doneOne (some ⟨0xE8, 0xE7, 0x0011, 0xC105⟩))] := by decide
theorem test_frameTxStatus : given (exec (.frameTxStatus 1 0xFFFE 2 3 4) State.reset) =
    some [.event (.txStatus 1 0xFFFE 2 3 4)] := by decide
theorem test_frameAtResponse : given (exec (.frameAtResponse 1 0x5348 0 [0x00, 0x13, 0xA2, 0x00]) State.reset) =
    some [.event (.atResponse 1 0x5348 0 [0x00, 0x13, 0xA2, 0x00])] := by decide

/-- The messages of V21, V27 and R137, and R137's wrong CRC. -/
theorem test_msgData : sent (exec (.msgData 1 5 0 1 hello 0xBA88) State.reset) = some (hello, true, 0x00) := by
  decide +kernel
theorem test_msgNack : (after (exec (.msgNack 1 [1, 2] 0x6AA6) State.reset)).map (fun t => (t.cmd.nCnt, t.cmd.idxFile)) =
    some (2, [(0, 1), (1, 2)]) := by decide +kernel
theorem test_msgDone : verdict (exec (.msgDone 1 0xBB05) State.reset) = some (true, 0x00, 0) ∧
    verdict (exec (.msgDone 2 0xBB05) State.reset) = some (false, 0x03, 1) := by decide +kernel

/-- R173's example. -/
theorem test_rxStart : (after (exec .rxStart (parsing .frameData 4 [1, 2, 3] true))).map
    (fun t => (t.par.pstate, t.par.idx, t.par.sum, t.par.esc)) = some (.lengthMsb, 0, 0, false) := by decide +kernel

/-- V67 and V68: the second 0x7D of `7E 00 02 7D 7D`. -/
theorem test_rxEscape :
    (after (exec .rxEscape (withRepeat .data (parsing .frameData 2 [] true)))).map
      (fun t => (t.par.fbuf, t.par.esc)) = some ([(0, 0x5D)], false) ∧
    (after (exec .rxEscape (withRepeat .latch (parsing .frameData 2 [] true)))).map
      (fun t => (t.par.fbuf, t.par.esc)) = some ([], true) := by decide +kernel

/-- After `7E 00 04 7D`: `STATUS = 0x0B`. -/
theorem test_rxEscape_status : (after (exec .rxEscape (parsing .frameData 4 [] false))).map (fun t => statusByte t.par) =
    some 0x0B := by decide +kernel

/-- V31 and V51: the checksum byte 5B delivers, 5C does not; V48 and V50: the range of the length. -/
theorem test_rxByte_checksum :
    given (exec (.rxByte 0x5B) (parsing .checksum 4 [0x08, 0x01, 0x53, 0x48] false)) =
      some [.event (.atCommand 1 0x5348 [])] ∧
    given (exec (.rxByte 0x5C) (parsing .checksum 4 [0x08, 0x01, 0x53, 0x48] false)) = some [.event (.error 0x12)] := by
  decide +kernel
theorem test_rxByte_length :
    given (exec (.rxByte 0x00) (parsing .lengthLsb 0 [] false)) = some [.event (.error 0x11)] ∧
    given (exec (.rxByte 0x01) (parsing .lengthLsb 256 [] false)) = some [.event (.error 0x11)] ∧
    (after (exec (.rxByte 0x00) (parsing .lengthLsb 256 [] false))).map (fun t => statusByte t.par) = some 0x03 := by
  decide +kernel

/-! ## Witnesses: a state and operands that meet the hypotheses of each statement, clause by clause, at the ends of the
ranges -/

/-- A loaded string is the input. -/
theorem inputIs_loaded (s : List Byte) (h : s.length ≤ 1024) : InputIs (loaded s) s := by
  refine ⟨?_, h, fun i _ => ?_⟩
  · simp only [loaded, BitVec.toNat_ofNat]; exact (Nat.mod_eq_of_lt (by omega)).symm
  · exact Memory.read_ofBytes_zero s i

/-- The same of `n` equal bytes. -/
theorem inputIs_equal (n : Nat) (b : Byte) (h : n ≤ 1024) :
    InputIs (loaded (List.replicate n b)) (List.replicate n b) :=
  inputIs_loaded _ (by rw [List.length_replicate]; exact h)

/-- `ILEN` of `n` loaded equal bytes. -/
theorem iLen_equal (n : Nat) (b : Byte) (h : n < 65536) : (loaded (List.replicate n b)).cmd.iLen.toNat = n := by
  show (BitVec.ofNat 16 (List.replicate n b).length).toNat = n
  rw [List.length_replicate, BitVec.toNat_ofNat]
  exact Nat.mod_eq_of_lt h

theorem test_reset_params : State.reset.cfg.ok = true := by decide

/-- The ends of the ranges of the parameters (U10). -/
theorem test_params_ends : (Params.mk 520 1 .data).ok = true ∧ (Params.mk 65535 64 .latch).ok = true ∧
    (Params.mk 519 1 .data).ok = false ∧ (Params.mk 65536 64 .latch).ok = false ∧ (Params.mk 520 0 .data).ok = false ∧
    (Params.mk 520 65 .data).ok = false := by decide

/-- CrcTableEntriesAreTheBitLoop: the spot check of the vectors, first and last entry among it. -/
theorem test_witness_CrcTable : Config.crcTable.getD 0 0 = 0x0000 ∧ Config.crcTable.getD 7 0 = 0x70E7 ∧
    Config.crcTable.getD 128 0 = 0x9188 ∧ 255 < 256 ∧ Config.crcTable.getD 255 0 = 0x1EF0 := by decide +kernel

/-- VerifyAcceptsEveryAppend: one byte is too short, two are enough. -/
theorem test_witness_Verify : ([0x00] : List Byte).length < 2 ∧ 2 ≤ ([0xFF, 0xFF] : List Byte).length ∧
    crcVerify [0x00] = false ∧ crcVerify [0xFF, 0xFF] = true ∧ crcVerify [0x00, 0x00] = false := by decide

/-- CrcPropertiesHold: the last bit of the CRC of a one-byte string. -/
theorem test_witness_CrcProperties : 2 < ([0x41] ++ be16 (crc16 [0x41])).length ∧ 7 < 8 ∧
    crcVerify (flipBit ([0x41] ++ be16 (crc16 [0x41])) 2 7) = false := by decide +kernel

/-- CrcComputeStoresTheCrc: the empty input and the longest. -/
theorem test_witness_CrcCompute : InputIs (loaded []) [] ∧
    InputIs (loaded (List.replicate 1024 0)) (List.replicate 1024 0) :=
  ⟨inputIs_loaded _ (by decide), inputIs_equal 1024 0 (by decide)⟩

/-- CrcVerifyAnswersVerify: one byte, and two. -/
theorem test_witness_CrcVerify : (loaded [0x00]).cmd.iLen.toNat < 2 ∧
    InputIs (loaded [0xFF, 0xFF]) [0xFF, 0xFF] ∧ 2 ≤ ([0xFF, 0xFF] : List Byte).length :=
  ⟨by decide, inputIs_loaded _ (by decide), by decide⟩

/-- CrcAppendBuildsInputAndCrc: one byte too many (V13), and the most that fit. -/
theorem test_witness_CrcAppend :
    (loaded (List.replicate 1023 0)).cfg.bufCap < (loaded (List.replicate 1023 0)).cmd.iLen.toNat + 2 ∧
    InputIs (loaded (List.replicate 1022 0)) (List.replicate 1022 0) ∧
    (List.replicate 1022 (0 : Byte)).length + 2 ≤ (loaded (List.replicate 1022 0)).cfg.bufCap :=
  ⟨by rw [iLen_equal 1023 0 (by decide)]; decide, inputIs_equal 1022 0 (by decide),
    by rw [List.length_replicate]; decide⟩

/-- EncDataBuildsTheFragment: 256 bytes, and 255. -/
theorem test_witness_EncData : 255 < (loaded (List.replicate 256 0)).cmd.iLen.toNat ∧
    InputIs (loaded (List.replicate 255 0)) (List.replicate 255 0) ∧ (List.replicate 255 (0 : Byte)).length ≤ 255 :=
  ⟨by rw [iLen_equal 256 0 (by decide)]; decide, inputIs_equal 255 0 (by decide), by rw [List.length_replicate]⟩

/-- BuildNackListsTheIndexFile, at 255 indices; EncHdrWritesTheHeader and BuildDoneBuildsSixBytes ask for `cfg.ok`. -/
theorem test_witness_BuildNack :
    (after (exec .fragBuildNack { State.reset with cmd := { State.reset.cmd with nCnt := 255 } })).map
      (fun t => t.cmd.oLen) = some 517 := by decide +kernel

/-- DecHdrDecodesThirteenBytes: 12 bytes, and 13. -/
theorem test_witness_DecHdr : (loaded (List.replicate 12 0)).cmd.iLen.toNat < 13 ∧
    13 ≤ (loaded (List.replicate 13 7)).cmd.iLen.toNat ∧ (List.replicate 13 (7 : Byte)).length = 13 ∧
    ∀ i, i < 13 → Memory.read (loaded (List.replicate 13 7)).cmd.ibuf i = (List.replicate 13 (7 : Byte))[i]? :=
  ⟨by decide, by decide, by decide, fun i _ => Memory.read_ofBytes_zero _ i⟩

/-- A DATA-shaped string of 15 bytes with the given version, tag and payload-length byte and the right CRC. -/
def data15 (v t n : Byte) : List Byte := crcAppend ([v, t] ++ List.replicate 10 0 ++ [n])

/-- ParseDataValidatesAndDelivers: 14 bytes; then 15 bytes for each clause. -/
theorem test_witness_ParseData : (loaded (List.replicate 14 0)).cmd.iLen.toNat < 15 ∧
    (data15 1 1 0).length = 15 ∧ (∀ v t n, (data15 v t n).length = 15) ∧
    crcVerify (flipBit (data15 1 1 0) 14 0) = false ∧
    crcVerify (data15 2 1 0) = true ∧ crcVerify (data15 1 2 0) = true ∧ crcVerify (data15 1 1 1) = true ∧
    crcVerify (data15 1 1 0) = true ∧ InputIs (loaded (data15 1 1 0)) (data15 1 1 0) :=
  ⟨by decide, by decide, fun _ _ _ => rfl, by decide +kernel, by decide +kernel, by decide +kernel, by decide +kernel,
    by decide +kernel, inputIs_loaded _ (by decide)⟩

/-- A NACK-shaped string of 7 bytes with the given version, tag and count and the right CRC. -/
def nack7 (v t n : Byte) : List Byte := crcAppend [v, t, 0, 0, n]

/-- ParseNackValidatesAndDelivers: 6 bytes; then 7 bytes for each clause. -/
theorem test_witness_ParseNack : (loaded (List.replicate 6 0)).cmd.iLen.toNat < 7 ∧
    (∀ v t n, (nack7 v t n).length = 7) ∧ crcVerify (flipBit (nack7 1 2 0) 0 0) = false ∧
    crcVerify (nack7 2 2 0) = true ∧ crcVerify (nack7 1 1 0) = true ∧ crcVerify (nack7 1 2 1) = true ∧
    crcVerify (nack7 1 2 0) = true ∧ InputIs (loaded (nack7 1 2 0)) (nack7 1 2 0) :=
  ⟨by decide, fun _ _ _ => rfl, by decide +kernel, by decide +kernel, by decide +kernel, by decide +kernel,
    by decide +kernel, inputIs_loaded _ (by decide)⟩

/-- ParseDoneValidatesAndDelivers: 5 bytes; 6 bytes for each clause; 7 bytes for the length clause (V29). -/
theorem test_witness_ParseDone : (loaded (List.replicate 5 0)).cmd.iLen.toNat < 6 ∧
    (∀ v t, (crcAppend [v, t, 0, 0]).length = 6) ∧ crcVerify (flipBit (doneMsg 0) 5 7) = false ∧
    crcVerify (crcAppend [2, 3, 0, 0]) = true ∧ crcVerify (crcAppend [1, 2, 0, 0]) = true ∧
    crcVerify [0x01, 0x03, 0x00, 0x01, 0x00, 0x13, 0xB0] = true ∧ crcVerify (doneMsg 0) = true ∧
    InputIs (loaded (doneMsg 0)) (doneMsg 0) :=
  ⟨by decide, fun _ _ => rfl, by decide +kernel, by decide +kernel, by decide +kernel, by decide +kernel,
    by decide +kernel, inputIs_loaded _ (by decide)⟩

/-- ParseDispatchesOnTheTag: one byte; then two bytes with each tag, and the tags beside them. -/
theorem test_witness_Parse : (loaded [0x01]).cmd.iLen.toNat < 2 ∧
    (∀ t : Byte, InputIs (loaded [0x01, t]) [0x01, t] ∧ byteAt [0x01, t] 1 = t) ∧
    verdict (exec .fragParse (loaded [0x01, 0x00])) = some (false, 0x05, 0) ∧
    verdict (exec .fragParse (loaded [0x01, 0x04])) = some (false, 0x05, 0) ∧
    verdict (exec .fragParse (loaded [0x01, 0x01])) = some (false, 0x02, 0) :=
  ⟨by decide, fun _ => ⟨inputIs_loaded _ (by simp), rfl⟩, by decide, by decide, by decide⟩

/-- DataFragmentRoundTrip: no payload, and 255 bytes of it. -/
theorem test_witness_DataRoundTrip : InputIs (loaded (dataMsg 1 0 0 1 [])) (dataMsg 1 0 0 1 []) ∧
    InputIs (loaded (dataMsg 1 255 0 1 (List.replicate 255 7))) (dataMsg 1 255 0 1 (List.replicate 255 7)) :=
  ⟨inputIs_loaded _ (by decide), inputIs_loaded _ (by decide +kernel)⟩

/-- NackAndDoneRoundTrip: no index, 255 of them, and a DONE. -/
theorem test_witness_NackDoneRoundTrip : InputIs (loaded (nackMsg 1 [])) (nackMsg 1 []) ∧
    InputIs (loaded (nackMsg 1 (List.replicate 255 7))) (nackMsg 1 (List.replicate 255 7)) ∧
    InputIs (loaded (doneMsg 0xFFFF)) (doneMsg 0xFFFF) :=
  ⟨inputIs_loaded _ (by decide), inputIs_loaded _ (by decide +kernel), inputIs_loaded _ (by decide)⟩

/-- FlippedMessageIsDropped: the first byte and the last of each kind. -/
theorem test_witness_Flipped :
    0 < (dataMsg 1 0 0 1 []).length ∧ 14 < (dataMsg 1 0 0 1 []).length ∧
    InputIs (loaded (flipBit (dataMsg 1 0 0 1 []) 14 7)) (flipBit (dataMsg 1 0 0 1 []) 14 7) ∧
    6 < (nackMsg 1 []).length ∧ InputIs (loaded (flipBit (nackMsg 1 []) 6 0)) (flipBit (nackMsg 1 []) 6 0) ∧
    5 < (doneMsg 1).length ∧ InputIs (loaded (flipBit (doneMsg 1) 5 7)) (flipBit (doneMsg 1) 5 7) :=
  ⟨by decide, by decide, inputIs_loaded _ (by decide), by decide, inputIs_loaded _ (by decide), by decide,
    inputIs_loaded _ (by decide)⟩

/-- GoodMessagesAreDelivered and BadMessagesAreDropped: the CRC fields of V16, V19 and V20, and each one off by one bit. -/
theorem test_witness_Messages : (0x326E : Half) = crc16 (dataHead 1 0 0 1 []) ∧ (0x326F : Half) ≠ crc16 (dataHead 1 0 0 1 []) ∧
    (0x6504 : Half) = crc16 (nackHead 1 []) ∧ (0x6505 : Half) ≠ crc16 (nackHead 1 []) ∧
    (0xAB24 : Half) = crc16 (doneHead 0) ∧ (0xAB25 : Half) ≠ crc16 (doneHead 0) := by decide +kernel

/-- BuildTxWritesTheFrame and BuildTxAutoAssignsTheFrameId: the longest frame that fits 1024 bytes, one byte more, and
242 bytes of data; a frame id of 0, 255 and another. -/
theorem test_witness_BuildTx :
    (wire ([0x10, 0x00] ++ be64 0 ++ be16 0 ++ [0, 0] ++ List.replicate 1006 0)).length = 1024 ∧
    (wire ([0x10, 0x00] ++ be64 0 ++ be16 0 ++ [0, 0] ++ List.replicate 1007 0)).length = 1025 ∧
    (wire ([0x10, 0xFF] ++ be64 0 ++ be16 0 ++ [0, 0] ++ List.replicate 242 0x7E)).length ≤ 520 := by decide +kernel

/-- The inputs of those. -/
theorem test_witness_BuildTx_input : InputIs (withRadio 0 (loaded (List.replicate 1007 0))) (List.replicate 1007 0) ∧
    InputIs (withRadio 0xFF (loaded (List.replicate 242 0x7E))) (List.replicate 242 0x7E) ∧
    State.reset.cmd.fid = 0 ∧ (withRadio 0xFF State.reset).cmd.fid ≠ 0 :=
  ⟨inputIs_equal 1007 0 (by decide), inputIs_equal 242 0x7E (by decide), by decide, by decide⟩

/-- BuildAtWritesTheFrame and BuildAtAutoAssignsTheFrameId: the same ends for an AT command. -/
theorem test_witness_BuildAt :
    (wire ([0x08, 0x00] ++ be16 0 ++ List.replicate 1016 0)).length = 1024 ∧
    (wire ([0x08, 0x00] ++ be16 0 ++ List.replicate 1017 0)).length = 1025 ∧
    (wire ([0x08, 0x01] ++ be16 0 ++ List.replicate 252 0x7D)).length ≤ 520 := by decide +kernel

/-- EscapingIsTransparent: the bytes of the escape set, each followed as the rule says (V32). -/
theorem test_witness_Escaping : (wire [0x08, 0x7E, 0x7D, 0x11, 0x13])[4]? = some (0x7D : Byte) ∧
    (wire [0x08, 0x7E, 0x7D, 0x11, 0x13])[5]? = some (0x5E : Byte) := by decide +kernel

/-- FrameIdsAreNeverZero: the last id. -/
theorem test_witness_FrameIds : (255 : Byte) ≠ 0 ∧ nextFrameId 255 = 1 ∧ nextFrameId 254 = 255 := by decide

/-- BuiltFramesParseBack and ResyncOnEveryFrame: bodies of 256 bytes and of one; the bytes of any frame can pend in any
state. -/
theorem test_witness_ParseBack : 14 + (List.replicate 242 (0 : Byte)).length ≤ 256 ∧
    4 + (List.replicate 252 (0 : Byte)).length ≤ 256 ∧ 1 ≤ ([0x00] : List Byte).length ∧
    InputIs (loaded (List.replicate 252 0)) (List.replicate 252 0) ∧
    ∀ (w : List Byte) (s : State) (rest : List HostAction),
      (pending (w.map rxWrite ++ rest) s).input = w.map rxWrite ++ rest :=
  ⟨by rw [List.length_replicate], by rw [List.length_replicate], by decide, inputIs_equal 252 0 (by decide),
    fun _ _ _ => rfl⟩

/-- DelimiterOpensAndIdleDiscards: every other byte while idle, the escape prefix among them. -/
theorem test_witness_Idle : (0x7D : Byte) ≠ 0x7E ∧ State.reset.par.pstate = .waitingForStart := by decide

/-- EscapeLatchFourCases: one state for each of its five clauses. -/
theorem test_witness_EscapeLatch :
    (parsing .lengthMsb 0 [] false).par.pstate ≠ .waitingForStart ∧ (parsing .lengthMsb 0 [] false).par.esc = false ∧
    (parsing .checksum 1 [0] true).par.pstate ≠ .waitingForStart ∧ (parsing .checksum 1 [0] true).par.esc = true ∧
    (0x5E : Byte) ≠ 0x7D ∧ (withRepeat .data (parsing .checksum 1 [0] true)).cfg.escRepeat = .data ∧
    (withRepeat .latch (parsing .checksum 1 [0] true)).cfg.escRepeat = .latch := by decide

/-- LengthBytesAreAssembledAndChecked: 0, 1, 256 and 257, plain and escaped. -/
theorem test_witness_Length :
    (parsing .lengthMsb 0 [] true).par.pstate = .lengthMsb ∧ (parsing .lengthLsb 0 [] false).par.pstate = .lengthLsb ∧
    ((parsing .lengthLsb 0 [] false).par.flen.toNat + (0x00 : Byte).toNat) % 65536 = 0 ∧
    ((parsing .lengthLsb 0 [] false).par.flen.toNat + (0x01 : Byte).toNat) % 65536 = 1 ∧
    ((parsing .lengthLsb 256 [] true).par.flen.toNat + ((0x20 : Byte) ^^^ 0x20).toNat) % 65536 = 256 ∧
    ((parsing .lengthLsb 256 [] false).par.flen.toNat + (0x01 : Byte).toNat) % 65536 = 257 := by decide

/-- BodyBytesAreStoredAndSummed: the only byte of a body of one, and the last of 256. -/
theorem test_witness_Body :
    (parsing .frameData 1 [] false).par.idx.toNat < (parsing .frameData 1 [] false).par.flen.toNat ∧
    (parsing .frameData 256 (List.replicate 255 0) false).par.idx.toNat <
      (parsing .frameData 256 (List.replicate 255 0) false).par.flen.toNat ∧
    (parsing .frameData 256 (List.replicate 255 0) false).par.flen.toNat ≤ 256 := by decide +kernel

/-- ChecksumDecidesTheFrame, ParserStepIsTheRule, ParserFactsHold and the second half of StepRunsTheDecodedFrameOrMessage:
a received body with its right and a wrong checksum. -/
theorem test_witness_Checksum :
    (parsing .checksum 2 [0x8A, 0x06] false).par.pstate = .checksum ∧
    ReceivedIs (parsing .checksum 2 [0x8A, 0x06] false).par [0x8A, 0x06] ∧
    (parsing .checksum 2 [0x8A, 0x06] false).par.flen.toNat = ([0x8A, 0x06] : List Byte).length ∧
    (parsing .checksum 2 [0x8A, 0x06] false).par.sum = sum8 [0x8A, 0x06] ∧
    (0x6F : Byte) = 0xFF - sum8 [0x8A, 0x06] ∧ (0x6E : Byte) ≠ 0xFF - sum8 [0x8A, 0x06] := by decide

/-- ParserStepIsTheRule and ParserFactsHold: a parser of the invariant in each state. -/
theorem test_witness_ParserInv :
    parserInv (parsing .waitingForStart 9 [1] false).par = true ∧ parserInv (parsing .lengthMsb 0 [] true).par = true ∧
    parserInv (parsing .lengthLsb 256 [] true).par = true ∧ parserInv (parsing .frameData 2 [1] true).par = true ∧
    parserInv (parsing .checksum 2 [0x8A, 0x06] true).par = true ∧
    parserInv (parsing .waitingForStart 9 [1] true).par = false := by decide +kernel

/-- DispatchFollowsTheRules: a body of one byte. -/
theorem test_witness_Dispatch : ([0x00] : List Byte) ≠ [] ∧
    given (dispatchFrame [0x00] State.reset) = some [.event (.unknownFrame 0x00 [0x00])] := by decide

/-- AtMostOneEventPerFrame, AgentsDoNotDisturbEachOther and CountersCountTheirFailures: parser steps with and without an
event, and a run that ends in one event. -/
theorem test_witness_ParserSteps :
    given (exec (decodeRx 0x6F) (parsing .checksum 2 [0x8A, 0x06] false)) =
      some [.event (.unknownFrame 0x8A [0x8A, 0x06])] ∧
    (0x7E : Byte) ∉ ([0x06, 0x6F] : List Byte) ∧
    given (runSteps 2 (pending ([0x06, 0x6F].map rxWrite) (parsing .frameData 2 [0x8A] false))) =
      some [.event (.unknownFrame 0x8A [0x8A, 0x06])] := by decide +kernel

/-- AgentsDoNotDisturbEachOther: a command that answers a next state, and one that faults. -/
theorem test_witness_Agents : Instr.crcCompute.format = .cmd ∧ Instr.crcCompute ≠ .sysReset ∧
    (after (exec .crcCompute (loaded []))).isSome = true ∧
    (match exec .crcCompute { State.reset with cmd := { State.reset.cmd with iLen := 1 } } with
      | .fault f => f == .noValue .ibuf 0
      | .next _ => false
      | .refused _ => false) = true := by decide

/-- HardwareResetIsSysReset. -/
theorem test_witness_HardReset : (pending [.hardReset] (loaded hello)).input = .hardReset :: [] ∧
    after (step (pending [.hardReset] (loaded hello))) = some State.reset := by decide +kernel

/-- IllegalCommandIsVisibleAndHarmless: 0x00, 0x55 and 0xFF are no code. -/
theorem test_witness_Illegal : verdict (step (pending [.write 0x00000 0x00] State.reset)) = some (false, 0x01, 0) ∧
    verdict (step (pending [.write 0x00000 0x55] State.reset)) = some (false, 0x01, 0) ∧
    verdict (step (pending [.write 0x00000 0xFF] State.reset)) = some (false, 0x01, 0) := by decide

/-- StepRunsTheDecodedInstruction: a command and a byte. -/
theorem test_witness_Step : decode .cmd [(0xF4 : BitVec 64).setWidth 8] = .ok .fragBuildDone ∧
    decode .rxByte [(0x7E : BitVec 64).setWidth 8] = .ok .rxStart ∧
    (pending [.write 0x00000 0xF4] State.reset).input = .write 0x00000 0xF4 :: [] := by decide

/-- StepRunsTheDecodedFrameOrMessage: the body of V31 before its checksum 5B, and a DONE. -/
theorem test_witness_StepFrame :
    (parsing .checksum 4 [0x08, 0x01, 0x53, 0x48] false).par.sum + (0x5B : Byte) = 0xFF ∧
    ReceivedIs (parsing .checksum 4 [0x08, 0x01, 0x53, 0x48] false).par [0x08, 0x01, 0x53, 0x48] ∧
    decode .apiFrame [0x08, 0x01, 0x53, 0x48] = .ok (.frameAtCommand 0x01 0x5348 []) ∧
    InputIs (pending [cmdWrite 0xF9] (loaded doneOne)) doneOne ∧ decode .fragMsg doneOne = .ok (.msgDone 1 0xBB05) :=
  ⟨by decide, by decide, by decide, inputIs_loaded doneOne (by decide), by decide⟩

/-- WrittenRegistersReadBack and ForbiddenWritesAreIgnored: the ends of `ILEN`, of `IDX` and of `IBUF`; a read-only register,
`OBUF`, an address inside a register and one after the map. -/
theorem test_witness_Writes :
    placeAt State.reset.cfg 0x00040 = some .iLen ∧ Place.writableWidth .iLen = some 16 ∧
    1024 % 2 ^ 16 ≤ State.reset.cfg.bufCap ∧ State.reset.cfg.bufCap < 1025 % 2 ^ 16 ∧
    placeAt State.reset.cfg 0x003FC = some (.idx 254) ∧ placeAt State.reset.cfg 0x003FE = none ∧
    placeAt State.reset.cfg 0x103FF = some (.ibuf 1023) ∧ placeAt State.reset.cfg 0x10400 = none ∧
    placeAt State.reset.cfg 0x00002 = some .ok ∧ Place.writableWidth .ok = none ∧
    placeAt State.reset.cfg 0x20000 = some (.obuf 0) ∧ placeAt State.reset.cfg 0x00023 = none := by decide

/-- ReadsChangeNothing: a register (V69), a write-only register, an unmapped address, a written byte. -/
theorem test_witness_Reads :
    given (step (pending [.read 0x00005] State.reset)) = some [.readData 0x00005 1] ∧
    given (step (pending [.read 0x00000] State.reset)) = some [.readData 0x00000 0] ∧
    given (step (pending [.read 0x3FFFF] State.reset)) = some [.readData 0x3FFFF 0] ∧
    given (step (pending [.read 0x10001] (loaded hello))) = some [.readData 0x10001 0x65] := by decide +kernel

/-- ReadsChangeNothing, the bytes of the buffers: the last index of each in a machine with the least `BUF_CAP`, written and
not, and a written byte of `OBUF`. -/
theorem test_witness_BufferReads :
    519 < (Params.mk 520 1 .data).bufCap ∧ Memory.read (Memory.ofBytes 519 [0x7A]) 519 = some (0x7A : Byte) ∧
    Memory.read (Memory.ofBytes 0 hello) 519 = none ∧ State.reset.cfg.ok = true ∧ 1023 < State.reset.cfg.bufCap ∧
    given (step (pending [.read 0x20000] { State.reset with cmd := { State.reset.cmd with
      oLen := 1, obuf := [(0, 0x7A)] } })) = some [.readData 0x20000 0x7A] := by decide +kernel

/-- StatusShowsTheParser: `0x0B` after `7E 00 04 7D` (V50 and the trace of V41). -/
theorem test_witness_Status :
    given (step (pending [.read 0x00004] (parsing .frameData 4 [] true))) = some [.readData 0x00004 0x0B] := by
  decide +kernel

/-- CommandsWriteOnlyTheirRegisters: FRAG.PARSE_NACK of two indices leaves the first entry after them. -/
theorem test_witness_NackFrame :
    (after (exec .fragParseNack { loaded nackV27 with cmd := { (loaded nackV27).cmd with idxFile := [(2, 8)] } })).map
      (fun t => (t.cmd.nCnt.toNat, IndexFile.read t.cmd.idxFile 2)) = some (2, 8) := by decide +kernel

/-- CommandsReportTheirOutcome, CommandsWriteOnlyTheirRegisters and CountersCountTheirFailures: every command but
SYS.RESET answers a next state on an empty input. -/
theorem test_witness_Commands :
    ([.crcCompute, .crcVerify, .crcAppend, .fragEncHdr, .fragEncData, .fragBuildNack, .fragBuildDone, .fragDecHdr,
      .fragParseData, .fragParseNack, .fragParseDone, .fragParse, .apiBuildTx, .apiBuildTxAuto, .apiBuildAt,
      .apiBuildAtAuto] : List Instr).all (fun i => (after (exec i State.reset)).isSome && i.format == .cmd) = true := by
  decide +kernel

/-- EveryStepKeepsTheInvariant, BlockNeverStops and ResetStateIsInvariant: a state with a command to run. -/
theorem test_witness_Invariant : (pending [cmdWrite 0xC3] (loaded hello)).inv = true ∧
    ((after (step (pending [cmdWrite 0xC3] (loaded hello)))).map State.inv) = some true := by decide +kernel

/-- DecodeOfEncodeIsTheInstruction and EncodeOfDecodeIsTheBytes: a well-formed term of each format. -/
theorem test_witness_Encoding : Instr.sysReset.wellFormed = true ∧ (Instr.frameTxStatus 1 2 3 4 5).wellFormed = true ∧
    (Instr.msgNack 1 (List.replicate 255 7) 0).wellFormed = true ∧ (Instr.rxByte 0x11).wellFormed = true ∧
    decode .fragMsg doneOne = .ok (.msgDone 1 0xBB05) := by decide +kernel

end Sys2Proof.Tests
end

section
/-! SUPPORT. The parser's invariant (R48): what it says in each state, what one parser step can do, and that every
step keeps it. The status byte (R36) and its host read. -/

namespace Sys2Proof.Machine

/-! ## The status byte -/

/-- The status byte bit by bit: the code of `pstate` below, then `esc`, then zeros. -/
theorem getLsbD_statusByte (p : ParserUnit) (i : Nat) :
    (statusByte p).getLsbD i = if i < 3 then p.pstate.code.getLsbD i else decide (i = 3) && p.esc := by
  show (((0 : BitVec 4) ++ BitVec.ofBool p.esc) ++ p.pstate.code).getLsbD i = _
  rw [BitVec.getLsbD_append, BitVec.getLsbD_append]
  split
  · rfl
  · rename_i hi
    by_cases h3 : i = 3
    · simp [h3]
    · have h1 : ¬ i - 3 < 1 := by omega
      simp [h3, h1]

/-- Bits 2:0 of `STATUS`, as the host reads it. -/
theorem extractLsb'_statusByte (p : ParserUnit) :
    ((statusByte p).setWidth 64).extractLsb' 0 3 = p.pstate.code := by
  apply BitVec.eq_of_getLsbD_eq
  intro i hi
  have h64 : i < 64 := by omega
  simp only [BitVec.getLsbD_extractLsb', BitVec.getLsbD_setWidth, getLsbD_statusByte, Nat.zero_add, hi, h64,
    decide_true, Bool.true_and, if_true]

/-- Bit 3 of `STATUS`, as the host reads it. -/
theorem getLsbD_three_statusByte (p : ParserUnit) : ((statusByte p).setWidth 64).getLsbD 3 = p.esc := by
  rw [BitVec.getLsbD_setWidth, getLsbD_statusByte]
  rfl

/-- Bits 7:4 of `STATUS` are zero. -/
theorem toNat_statusByte_lt (p : ParserUnit) : (statusByte p).toNat < 2 ^ 4 := by
  apply Nat.lt_pow_two_of_testBit
  intro i hi
  have h3 : ¬ i < 3 := by omega
  have hne : i ≠ 3 := by omega
  rw [BitVec.testBit_toNat, getLsbD_statusByte, if_neg h3, decide_eq_false hne, Bool.false_and]

/-- In every state a host read of `STATUS` gives the status byte, zero-extended. -/
theorem readGives_status (s : State) : ReadGives s 0x00004 ((statusByte s.par).setWidth 64) :=
  readGives_of (p := .status) rfl fun _ => rfl

/-- Settles O60: the read gives the status byte, whose three fields are read off one by one. -/
theorem statusShowsTheParser : Obligations.StatusShowsTheParser := by
  intro s
  refine ⟨_, readGives_status s, ?_, getLsbD_three_statusByte s.par, ?_⟩
  · rw [extractLsb'_statusByte]
    cases s.par.pstate <;> rfl
  · have hlt := toNat_statusByte_lt s.par
    rw [BitVec.toNat_setWidth]
    omega

/-! ## The received body -/

/-- The sum of two strings, one after the other. -/
theorem sum8_append (f g : List Byte) : sum8 (f ++ g) = sum8 f + sum8 g := by
  induction f with
  | nil => simp [sum8]
  | cons b t ih => simp [sum8, ih, BitVec.add_assoc]

/-- The running sum is the sum of the body received so far. -/
theorem sumHolds_iff (p : ParserUnit) : sumHolds p = true ↔ ∃ f, ReceivedIs p f ∧ p.sum = sum8 f := by
  have hread (f : List Byte) : readBytes .fbuf p.fbuf 0 p.idx.toNat = .ok f ↔ ReceivedIs p f := by
    rw [readBytes_ok_iff]
    simp only [Nat.zero_add]
    constructor
    · rintro ⟨hl, hb⟩
      exact ⟨hl, fun i hi => hb i (hl ▸ hi)⟩
    · rintro ⟨hl, hb⟩
      exact ⟨hl, fun i hi => hb i (hl ▸ hi)⟩
  simp only [← hread]
  unfold sumHolds
  cases readBytes .fbuf p.fbuf 0 p.idx.toNat with
  | error _ => simp
  | ok f => simp [eq_comm (a := p.sum)]

/-- Nothing is received while `idx` is zero. -/
theorem receivedIs_nil {p : ParserUnit} (h : p.idx = 0) : ReceivedIs p [] :=
  ⟨by rw [h]; rfl, fun i hi => absurd hi (Nat.not_lt_zero i)⟩

/-- A byte stored at `idx` is the next byte of the received body. -/
theorem receivedIs_append {p q : ParserUnit} {f : List Byte} {d : Byte} (h : ReceivedIs p f)
    (hidx : q.idx.toNat = p.idx.toNat + 1) (hfbuf : q.fbuf = Memory.write p.idx.toNat d p.fbuf) :
    ReceivedIs q (f ++ [d]) := by
  obtain ⟨hl, hb⟩ := h
  refine ⟨by simp [hl, hidx], fun i hi => ?_⟩
  rw [hfbuf, Memory.read_write, ← hl]
  split
  · rename_i he; simp [he]
  · rename_i hne
    have hlt : i < f.length := by simp at hi; omega
    rw [hb i hlt, List.getElem?_append_left hlt]

/-! ## What the invariant says in each state -/

theorem lengthOk_iff (flen : Half) : lengthOk flen = true ↔ 1 ≤ flen.toNat ∧ flen.toNat ≤ 256 := by
  exact decide_eq_true_iff

section
variable {p : ParserUnit}

theorem parserInv_waitingForStart (h : p.pstate = .waitingForStart) : parserInv p = true ↔ p.esc = false := by
  simp [parserInv, h]

theorem parserInv_lengthMsb (h : p.pstate = .lengthMsb) : parserInv p = true ↔ p.sum = 0 := by
  simp [parserInv, h]

theorem parserInv_lengthLsb (h : p.pstate = .lengthLsb) :
    parserInv p = true ↔ p.sum = 0 ∧ p.flen.toNat % 256 = 0 := by
  simp [parserInv, h]

theorem parserInv_frameData (h : p.pstate = .frameData) :
    parserInv p = true ↔ (1 ≤ p.flen.toNat ∧ p.flen.toNat ≤ 256) ∧ p.idx.toNat < p.flen.toNat ∧
      ∃ f, ReceivedIs p f ∧ p.sum = sum8 f := by
  rw [← lengthOk_iff, ← sumHolds_iff]
  simp [parserInv, h, and_assoc]

theorem parserInv_checksum (h : p.pstate = .checksum) :
    parserInv p = true ↔ (1 ≤ p.flen.toNat ∧ p.flen.toNat ≤ 256) ∧ p.idx.toNat = p.flen.toNat ∧
      ∃ f, ReceivedIs p f ∧ p.sum = sum8 f := by
  rw [← lengthOk_iff, ← sumHolds_iff]
  simp [parserInv, h, and_assoc]

/-- The facts of R48 follow state by state. -/
theorem parserFacts_of_parserInv (hi : parserInv p = true) : parserFacts p := by
  refine ⟨fun h => (parserInv_waitingForStart h).1 hi, fun h => ?_, fun h => ?_⟩
  · obtain ⟨⟨hlo, hhi⟩, hlt, -⟩ := (parserInv_frameData h).1 hi
    exact ⟨hlo, hhi, hlt⟩
  · obtain ⟨-, heq, hsum⟩ := (parserInv_checksum h).1 hi
    exact ⟨heq, hsum⟩

end

/-- Outside `WaitingForStart` the invariant does not speak of the latch. -/
theorem parserInv_setEsc (v : Bool) {s : State} (hp : s.par.pstate ≠ .waitingForStart)
    (hi : parserInv s.par = true) : parserInv (setEsc v s).par = true := by
  cases h : s.par.pstate with
  | waitingForStart => exact absurd h hp
  | lengthMsb => exact (parserInv_lengthMsb (p := (setEsc v s).par) h).2 ((parserInv_lengthMsb h).1 hi)
  | lengthLsb => exact (parserInv_lengthLsb (p := (setEsc v s).par) h).2 ((parserInv_lengthLsb h).1 hi)
  | frameData => exact (parserInv_frameData (p := (setEsc v s).par) h).2 ((parserInv_frameData h).1 hi)
  | checksum => exact (parserInv_checksum (p := (setEsc v s).par) h).2 ((parserInv_checksum h).1 hi)

/-! ## One parser step -/

/-- The meaning of the byte class 0x7E. -/
theorem exec_rxStart (s : State) : exec .rxStart s = execRxStart s := rfl

/-- The meaning of the byte class 0x7D. -/
theorem exec_rxEscape (s : State) : exec .rxEscape s = execRxEscape s := rfl

/-- The meaning of every other byte. -/
theorem exec_rxByte (b : Byte) (s : State) : exec (.rxByte b) s = execRxByte b s := rfl

/-- The three byte classes of R89. -/
theorem decodeRx_cases (b : Byte) :
    (b = 0x7E ∧ decodeRx b = .rxStart) ∨ (b = 0x7D ∧ decodeRx b = .rxEscape) ∨
    (b ≠ 0x7E ∧ b ≠ 0x7D ∧ decodeRx b = .rxByte b) := by
  unfold decodeRx Config.startDelim Config.escByte
  by_cases hs : b = 0x7E
  · exact .inl ⟨hs, if_pos hs⟩
  by_cases he : b = 0x7D
  · exact .inr (.inl ⟨he, by rw [if_neg hs, if_pos he]⟩)
  · exact .inr (.inr ⟨hs, he, by rw [if_neg hs, if_neg he]⟩)

/-- Everything a parser step that answers a next state can do (R171, parts 1 to 4): a frame begins; the byte is
discarded, or is a repeated prefix under `ESC_REPEAT = latch`; the latch is set; or the de-escaped byte is consumed
with the latch cleared. -/
theorem parserStep_next {s t : State} {b : Byte} (h : exec (decodeRx b) s = .next t) :
    (b = 0x7E ∧ t = { s with par := { s.par with pstate := .lengthMsb, esc := false, sum := 0, flen := 0, idx := 0 } }) ∨
    (b ≠ 0x7E ∧ t = s ∧ (s.par.pstate = .waitingForStart ∨
      s.par.pstate ≠ .waitingForStart ∧ b = 0x7D ∧ s.par.esc = true ∧ s.cfg.escRepeat = .latch)) ∨
    (s.par.pstate ≠ .waitingForStart ∧ b = 0x7D ∧ s.par.esc = false ∧ t = setEsc true s) ∨
    (s.par.pstate ≠ .waitingForStart ∧ b ≠ 0x7E ∧ ¬(b = 0x7D ∧ s.par.esc = false) ∧
      consume (deEscape s.par.esc b) (setEsc false s) = .next t) := by
  obtain ⟨hb, hd⟩ | ⟨rfl, hd⟩ | ⟨hs, he, hd⟩ := decodeRx_cases b <;> rw [hd] at h
  case inl =>
    rw [exec_rxStart] at h
    cases h
    exact .inl ⟨hb, rfl⟩
  case inr.inl =>
    rw [exec_rxEscape] at h
    obtain ⟨hp, hx⟩ | ⟨hp, hl, hx⟩ | ⟨hp, hl, hr, hx⟩ | ⟨hp, hl, -, hx⟩ := execRxEscape_cases s <;> rw [hx] at h
    case inl =>
      cases h
      exact .inr (.inl ⟨by decide, rfl, .inl hp⟩)
    case inr.inl =>
      cases h
      exact .inr (.inr (.inl ⟨hp, rfl, hl, rfl⟩))
    case inr.inr.inl =>
      cases h
      exact .inr (.inl ⟨by decide, rfl, .inr ⟨hp, rfl, hl, hr⟩⟩)
    case inr.inr.inr =>
      have hx5D : deEscape s.par.esc 0x7D = 0x5D := by rw [hl]; rfl
      exact .inr (.inr (.inr ⟨hp, by decide, by simp [hl], by rw [hx5D]; exact h⟩))
  case inr.inr =>
    rw [exec_rxByte] at h
    unfold execRxByte at h
    split at h
    · rename_i hp
      cases h
      exact .inr (.inl ⟨hs, rfl, .inl hp⟩)
    · rename_i hp
      exact .inr (.inr (.inr ⟨hp, hs, fun hc => he hc.1, h⟩))

/-! ## Consuming a byte keeps the invariant -/

section
variable {s t : State} {d : Byte}

/-- `LengthMsb`: the length so far is a multiple of 256. -/
theorem consumeLengthMsb_parserInv (hp : s.par.pstate = .lengthMsb) (hi : parserInv s.par = true)
    (h : consumeLengthMsb d s = .next t) : parserInv t.par = true := by
  have hsum := (parserInv_lengthMsb hp).1 hi
  cases h
  refine (parserInv_lengthLsb rfl).2 ⟨hsum, ?_⟩
  simp [BitVec.toNat_shiftLeft, Nat.shiftLeft_eq]

/-- `LengthLsb`: the frame body begins with nothing received, or the parser is idle. -/
theorem consumeLengthLsb_parserInv (hp : s.par.pstate = .lengthLsb) (hesc : s.par.esc = false)
    (hi : parserInv s.par = true) (h : consumeLengthLsb d s = .next t) : parserInv t.par = true := by
  obtain ⟨hsum, -⟩ := (parserInv_lengthLsb hp).1 hi
  obtain ⟨hok, hx⟩ | ⟨-, hx⟩ := consumeLengthLsb_cases d s <;> rw [hx] at h <;> cases h
  case inl =>
    have hlen := (lengthOk_iff _).1 hok
    exact (parserInv_frameData rfl).2 ⟨hlen, hlen.1, [], receivedIs_nil rfl, hsum⟩
  case inr => exact (parserInv_waitingForStart (parserError_par_pstate _ _)).2 hesc

/-- `FrameData`: one more byte is received and summed, and the body may be complete with it. -/
theorem consumeFrameData_parserInv (hp : s.par.pstate = .frameData) (hi : parserInv s.par = true)
    (h : consumeFrameData d s = .next t) : parserInv t.par = true := by
  obtain ⟨hlen, hlt, f, hf, hsum⟩ := (parserInv_frameData hp).1 hi
  obtain ⟨-, rfl⟩ := consumeFrameData_next h
  have hidx : (s.par.idx + 1).toNat = s.par.idx.toNat + 1 := by
    bv_omega
  have hsum' : s.par.sum + d = sum8 (f ++ [d]) := by simp [sum8_append, sum8, hsum]
  by_cases hlast : (s.par.idx + 1).toNat = s.par.flen.toNat
  · exact (parserInv_checksum (if_pos hlast)).2 ⟨hlen, hlast, _, receivedIs_append hf hidx rfl, hsum'⟩
  · refine (parserInv_frameData (if_neg hlast)).2 ⟨hlen, ?_, _, receivedIs_append hf hidx rfl, hsum'⟩
    show (s.par.idx + 1).toNat < s.par.flen.toNat
    omega

/-- The dispatch of a frame from an idle parser leaves it idle and the latch as it was. -/
theorem dispatchFrame_idle {f : List Byte} (hp : s.par.pstate = .waitingForStart)
    (h : dispatchFrame f s = .next t) : t.par.pstate = .waitingForStart ∧ t.par.esc = s.par.esc := by
  obtain ⟨-, hx⟩ | ⟨-, e, hx⟩ := dispatchFrame_cases f s <;> rw [hx] at h <;> cases h
  case inl => exact ⟨rfl, rfl⟩
  case inr => exact ⟨hp, rfl⟩

/-- `Checksum`: whatever comes out, the parser is idle with the latch as it was (R185). -/
theorem consumeChecksum_idle (h : consumeChecksum d s = .next t) :
    t.par.pstate = .waitingForStart ∧ t.par.esc = s.par.esc := by
  obtain ⟨-, rfl⟩ | ⟨-, f, -, hdis⟩ := consumeChecksum_next h
  · exact ⟨rfl, rfl⟩
  · have hidle := dispatchFrame_idle (by rfl) hdis
    exact hidle

/-- Consuming a byte with the latch clear keeps the invariant, in every state of the parser. -/
theorem consume_parserInv (hesc : s.par.esc = false) (hi : parserInv s.par = true)
    (h : consume d s = .next t) : parserInv t.par = true := by
  unfold consume at h
  cases hp : s.par.pstate <;> rw [hp] at h
  case waitingForStart =>
    cases h
    exact hi
  case lengthMsb => exact consumeLengthMsb_parserInv hp hi h
  case lengthLsb => exact consumeLengthLsb_parserInv hp hesc hi h
  case frameData => exact consumeFrameData_parserInv hp hi h
  case checksum =>
    obtain ⟨hidle, hkept⟩ := consumeChecksum_idle h
    exact (parserInv_waitingForStart hidle).2 (hkept.trans hesc)

end

/-- Every parser step keeps the parser's invariant. -/
theorem parserStep_parserInv {s t : State} {b : Byte} (hi : parserInv s.par = true)
    (h : exec (decodeRx b) s = .next t) : parserInv t.par = true := by
  obtain ⟨-, rfl⟩ | ⟨-, rfl, -⟩ | ⟨hp, -, -, rfl⟩ | ⟨hp, -, -, hc⟩ := parserStep_next h
  · exact (parserInv_lengthMsb rfl).2 rfl
  · exact hi
  · exact parserInv_setEsc true hp hi
  · exact consume_parserInv (setEsc_par_esc false s) (parserInv_setEsc false hp hi) hc

/-- Settles O38: the facts state by state, the idle parser at reset, and the step by what it can do. -/
theorem parserFactsHold : Obligations.ParserFactsHold :=
  ⟨fun _ => parserFacts_of_parserInv, (parserInv_waitingForStart rfl).2 rfl, fun _ _ _ => parserStep_parserInv⟩

end Sys2Proof.Machine
end

section
/-! SUPPORT. The CRC function (40_crc R101 to R104, R108): the inner loop is linear over GF(2) and loses nothing, from
which follow the table-driven form, the zero residue and the detection of every change to a single byte. -/

namespace Sys2Proof.Machine

/-! ## One turn of the inner loop -/

/-- One turn, as the shift xor the polynomial times the bit shifted out. -/
theorem crcBit_eq (c : Half) : crcBit c = (c <<< 1) ^^^ (if c.msb then Config.crcPoly else 0#16) := by
  unfold crcBit
  split <;> simp

/-- A turn that shifts out a zero doubles the register. -/
theorem toNat_crcBit_of_lt {c : Half} (h : c.toNat < 2 ^ 15) : (crcBit c).toNat = c.toNat * 2 := by
  have hmsb : c.msb = false := BitVec.msb_eq_false_iff_two_mul_lt.2 (by omega)
  rw [crcBit_eq, hmsb, if_neg Bool.false_ne_true, BitVec.xor_zero, BitVec.toNat_shiftLeft, Nat.shiftLeft_eq]
  omega

/-- A turn is linear over GF(2). -/
theorem crcBit_xor (a b : Half) : crcBit (a ^^^ b) = crcBit a ^^^ crcBit b := by
  have hpoly (p q : Bool) : (if p ^^ q then Config.crcPoly else 0#16) =
      (if p then Config.crcPoly else 0#16) ^^^ (if q then Config.crcPoly else 0#16) := by
    cases p <;> cases q <;> rfl
  simp only [crcBit_eq, BitVec.msb_xor, BitVec.shiftLeft_xor_distrib, hpoly]
  ac_rfl

/-- The lowest bit after a turn is the bit shifted out: the polynomial ends in 1. -/
theorem getLsbD_zero_crcBit (c : Half) : (crcBit c).getLsbD 0 = c.msb := by
  rw [crcBit_eq]
  cases c.msb <;> simp [Config.crcPoly]

/-- Only zero goes to zero. -/
theorem eq_zero_of_crcBit_eq_zero {c : Half} (h : crcBit c = 0#16) : c = 0#16 := by
  have hmsb : c.msb = false := by rw [← getLsbD_zero_crcBit, h, BitVec.getLsbD_zero]
  have hlt : 2 * c.toNat < 2 ^ 16 := BitVec.msb_eq_false_iff_two_mul_lt.1 hmsb
  have hdouble : (0#16).toNat = c.toNat * 2 := h ▸ toNat_crcBit_of_lt (by omega)
  apply BitVec.eq_of_toNat_eq
  simp only [BitVec.toNat_ofNat, Nat.zero_mod] at hdouble ⊢
  omega

/-- Turns that shift out zeros only multiply by a power of two. -/
theorem toNat_iterate_crcBit_of_lt {c : Half} {n : Nat} (h : c.toNat * 2 ^ n < 2 ^ 16) :
    (crcBit^[n] c).toNat = c.toNat * 2 ^ n := by
  induction n with
  | zero => simp
  | succ n ih =>
    rw [Nat.pow_succ, ← Nat.mul_assoc] at h ⊢
    have hn := ih (by omega)
    rw [Function.iterate_succ_apply', toNat_crcBit_of_lt (by omega), hn]

/-! ## The inner loop -/

/-- The inner loop is linear over GF(2). -/
theorem crcLoop_xor (a b : Half) : crcLoop (a ^^^ b) = crcLoop a ^^^ crcLoop b := by
  simp only [crcLoop, crcBit_xor]

/-- Only zero goes to zero. -/
theorem crcLoop_eq_zero_iff {c : Half} : crcLoop c = 0#16 ↔ c = 0#16 := by
  constructor
  · intro h
    unfold crcLoop at h
    iterate 8 replace h := eq_zero_of_crcBit_eq_zero h
    exact h
  · rintro rfl
    rfl

/-- The inner loop loses nothing. -/
theorem crcLoop_inj {a b : Half} : crcLoop a = crcLoop b ↔ a = b := by
  rw [← BitVec.xor_eq_zero_iff, ← crcLoop_xor, crcLoop_eq_zero_iff, BitVec.xor_eq_zero_iff]

/-- A byte at the high end of a register. -/
theorem toNat_append_zero (b : Byte) : (b ++ (0 : Byte) : Half).toNat = b.toNat * 2 ^ 8 := by
  rw [BitVec.toNat_append, Nat.shiftLeft_eq]
  simp

/-- A register whose high byte is zero is only shifted. -/
theorem crcLoop_zero_append (l : Byte) : crcLoop ((0 : Byte) ++ l : Half) = (l ++ (0 : Byte) : Half) := by
  have hlow : ((0 : Byte) ++ l : Half).toNat = l.toNat := by rw [BitVec.toNat_append]; simp
  have hlt := l.isLt
  apply BitVec.eq_of_toNat_eq
  show (crcBit^[8] _).toNat = _
  rw [toNat_iterate_crcBit_of_lt (by omega), hlow, toNat_append_zero]

/-! ## The table -/

/-- Every entry printed in R102 is what the inner loop gives. -/
theorem crcTable_eq : Config.crcTable = (List.range 256).map fun i => crcLoop (BitVec.ofNat 16 i <<< 8) := by
  decide +kernel

/-- Settles O1: the table is the list of the loop's results. -/
theorem crcTableEntriesAreTheBitLoop : Obligations.CrcTableEntriesAreTheBitLoop := by
  unfold Obligations.CrcTableEntriesAreTheBitLoop
  rw [crcTable_eq]
  exact ⟨by simp, fun i hi => by simp [List.getD_eq_getElem?_getD, hi]⟩

/-- The table read at a byte. -/
theorem crcTable_getD (b : Byte) : Config.crcTable.getD b.toNat 0 = crcLoop (b ++ (0 : Byte) : Half) := by
  have hshift : BitVec.ofNat 16 b.toNat <<< 8 = (b ++ (0 : Byte) : Half) := by
    have hlt := b.isLt
    apply BitVec.eq_of_toNat_eq
    rw [toNat_append_zero, BitVec.toNat_shiftLeft, BitVec.toNat_ofNat, Nat.shiftLeft_eq]
    omega
  rw [crcTableEntriesAreTheBitLoop.2 b.toNat b.isLt, hshift]

/-! ## One byte -/

/-- The loop takes the high byte through the table, and shifts the low byte up. -/
theorem crcLoop_append (h l : Byte) :
    crcLoop (h ++ l : Half) = crcLoop (h ++ (0 : Byte) : Half) ^^^ (l ++ (0 : Byte) : Half) := by
  have hsplit : (h ++ l : Half) = (h ++ (0 : Byte) : Half) ^^^ ((0 : Byte) ++ l : Half) := by
    rw [BitVec.xor_append]
    simp
  rw [hsplit, crcLoop_xor, crcLoop_zero_append]

/-- A byte of the table-driven form is a byte of the bit-level form. -/
theorem crcTableByte_eq_crcByte (c : Half) (b : Byte) : crcTableByte c b = crcByte c b := by
  have hshift : c <<< 8 = (c.extractLsb' 0 8 ++ (0 : Byte) : Half) := BitVec.shiftLeft_eq_concat_of_lt (by decide)
  have hinput : c ^^^ (b ++ (0 : Byte) : Half) = ((c.extractLsb' 8 8 ^^^ b) ++ c.extractLsb' 0 8 : Half) := by
    conv_lhs => rw [← be16_join c]
    rw [BitVec.xor_append]
    simp
  calc crcTableByte c b
      = (c.extractLsb' 0 8 ++ (0 : Byte) : Half) ^^^ crcLoop ((c.extractLsb' 8 8 ^^^ b) ++ (0 : Byte) : Half) := by
        rw [crcTableByte, hshift, crcTable_getD]
    _ = crcLoop ((c.extractLsb' 8 8 ^^^ b) ++ c.extractLsb' 0 8 : Half) :=
        (BitVec.xor_comm _ _).trans (crcLoop_append _ _).symm
    _ = crcByte c b := by rw [crcByte, hinput]

/-- A byte of input keeps different registers different. -/
theorem crcByte_left_inj {c d : Half} (b : Byte) : crcByte c b = crcByte d b ↔ c = d := by
  rw [crcByte, crcByte, crcLoop_inj, BitVec.xor_left_inj]

/-- Different bytes of input leave different registers. -/
theorem crcByte_right_inj (c : Half) {a b : Byte} : crcByte c a = crcByte c b ↔ a = b := by
  rw [crcByte, crcByte, crcLoop_inj, BitVec.xor_right_inj]
  constructor
  · intro h
    have hhigh := congrArg (BitVec.extractLsb' 8 8) h
    rwa [BitVec.extractLsb'_append_eq_left, BitVec.extractLsb'_append_eq_left] at hhigh
  · rintro rfl
    rfl

/-! ## Strings -/

/-- The table-driven form is the bit-level form, from every register value. -/
theorem crcTableFrom_eq_crcFrom (c : Half) (s : List Byte) : crcTableFrom c s = crcFrom c s := by
  induction s generalizing c with
  | nil => rfl
  | cons b s ih => rw [crcTableFrom, crcFrom, crcTableByte_eq_crcByte, ih]

/-- Settles O2: `crc16` is the bit-level form started at 0xFFFF. -/
theorem tableDrivenCrcIsTheBitLevelCrc : Obligations.TableDrivenCrcIsTheBitLevelCrc :=
  ⟨crcTableFrom_eq_crcFrom 0xFFFF, crcTableFrom_eq_crcFrom⟩

/-- The CRC streams. -/
theorem crcFrom_append (c : Half) (s t : List Byte) : crcFrom c (s ++ t) = crcFrom (crcFrom c s) t := by
  induction s generalizing c with
  | nil => rfl
  | cons b s ih => exact ih (crcByte c b)

/-- A string keeps different registers different. -/
theorem crcFrom_inj {c d : Half} (s : List Byte) : crcFrom c s = crcFrom d s ↔ c = d := by
  induction s generalizing c d with
  | nil => rfl
  | cons b s ih => rw [crcFrom, crcFrom, ih, crcByte_left_inj]

/-- Every change to a single byte changes the CRC. -/
theorem crcFrom_set (c : Half) {s : List Byte} {i : Nat} (hi : i < s.length) (b : Byte) :
    crcFrom c (s.set i b) = crcFrom c s ↔ b = byteAt s i := by
  induction s generalizing c i with
  | nil => exact absurd hi (Nat.not_lt_zero i)
  | cons a s ih =>
    cases i with
    | zero => exact (crcFrom_inj s).trans (crcByte_right_inj c)
    | succ i => exact ih (crcByte c a) (Nat.lt_of_succ_lt_succ hi)

/-- Running over a 16-bit value xors it into the register, sixteen turns later. -/
theorem crcFrom_be16 (c v : Half) : crcFrom c (be16 v) = crcLoop (crcLoop (c ^^^ v)) := by
  have hv : (v.extractLsb' 8 8 ++ (0 : Byte) : Half) ^^^ ((0 : Byte) ++ v.extractLsb' 0 8 : Half) = v := by
    rw [BitVec.xor_append]
    simpa using be16_join v
  calc crcFrom c (be16 v)
      = crcLoop (crcLoop (c ^^^ (v.extractLsb' 8 8 ++ (0 : Byte) : Half)) ^^^
          (v.extractLsb' 0 8 ++ (0 : Byte) : Half)) := rfl
    _ = crcLoop (crcLoop (c ^^^ v)) := by
        rw [← crcLoop_zero_append (v.extractLsb' 0 8), ← crcLoop_xor, BitVec.xor_assoc, hv]

/-- The residue is zero exactly when the CRC field is the CRC. -/
theorem crc16_append_be16_eq_zero_iff (s : List Byte) (v : Half) : crc16 (s ++ be16 v) = 0 ↔ v = crc16 s := by
  show crcFrom _ _ = 0#16 ↔ _
  rw [crcFrom_append, crcFrom_be16, crcLoop_eq_zero_iff, crcLoop_eq_zero_iff, BitVec.xor_eq_zero_iff]
  exact eq_comm

/-! ## Verify -/

/-- A string of less than two bytes is refused. -/
theorem crcVerify_of_length_lt {s : List Byte} (h : s.length < 2) : crcVerify s = false := by
  have hn : ¬ 2 ≤ s.length := by omega
  rw [crcVerify, decide_eq_false hn, Bool.false_and]

/-- From two bytes on, the last two are compared with the CRC of the rest. -/
theorem crcVerify_iff {s : List Byte} (h : 2 ≤ s.length) :
    crcVerify s = true ↔ get16 s (s.length - 2) = crc16 (s.take (s.length - 2)) := by
  rw [crcVerify, decide_eq_true h, Bool.true_and, beq_iff_eq]

/-- A string with a CRC field is accepted exactly when the field is the CRC. -/
theorem crcVerify_append_be16_iff (s : List Byte) (v : Half) : crcVerify (s ++ be16 v) = true ↔ v = crc16 s := by
  have hlen : (s ++ be16 v).length - 2 = s.length := by simp
  have hfield : get16 (s ++ be16 v) s.length = v := by simpa using get16_be16 s [] v
  rw [crcVerify_iff (by simp), hlen, hfield, List.take_left]

/-- `verify` accepts every `append`. -/
theorem crcVerify_crcAppend (s : List Byte) : crcVerify (crcAppend s) = true :=
  (crcVerify_append_be16_iff s (crc16 s)).2 rfl

/-- Settles O3, clause by clause from the lemmas about `verify`. -/
theorem verifyAcceptsEveryAppend : Obligations.VerifyAcceptsEveryAppend :=
  ⟨fun _ => crcVerify_of_length_lt, fun _ => crcVerify_iff, fun _ => rfl, crcVerify_crcAppend⟩

/-- The bytes of a field are what was joined. -/
theorem be16_append (a b : Byte) : be16 (a ++ b : Half) = [a, b] := by
  have ha : (a ++ b : Half).extractLsb' 8 8 = a := BitVec.extractLsb'_append_eq_left
  have hb : (a ++ b : Half).extractLsb' 0 8 = b := BitVec.extractLsb'_append_eq_right
  rw [be16, ha, hb]

/-- A string of two or more bytes ends in a 16-bit field. -/
theorem exists_eq_append_be16 {t : List Byte} (h : 2 ≤ t.length) : ∃ s v, t = s ++ be16 v := by
  have hlast : (t.drop (t.length - 2)).length = 2 := by
    rw [List.length_drop]
    omega
  obtain ⟨a, b, hab⟩ := List.length_eq_two.1 hlast
  exact ⟨t.take (t.length - 2), a ++ b, by rw [be16_append, ← hab, List.take_append_drop]⟩

/-- From two bytes on, a string is accepted exactly when its own CRC is zero. -/
theorem crcVerify_iff_crc16_eq_zero {t : List Byte} (h : 2 ≤ t.length) : crcVerify t = true ↔ crc16 t = 0 := by
  obtain ⟨s, v, rfl⟩ := exists_eq_append_be16 h
  rw [crcVerify_append_be16_iff, crc16_append_be16_eq_zero_iff]

/-- The mask of a bit flip is not zero. -/
theorem xor_bit_ne (b : Byte) {j : Nat} (hj : j < 8) : b ^^^ (1#8 <<< j) ≠ b := by
  intro h
  have hbit := congrArg (fun x : Byte => x.getLsbD j) h
  simp [hj] at hbit

/-- An accepted string with any one bit flipped is refused: its CRC is no longer zero. -/
theorem crcVerify_flipBit {m : List Byte} {i j : Nat} (hm : crcVerify m = true) (hi : i < m.length) (hj : j < 8) :
    crcVerify (flipBit m i j) = false := by
  by_cases hlen : 2 ≤ m.length
  · have hzero : crc16 m = 0 := (crcVerify_iff_crc16_eq_zero hlen).1 hm
    have hlen' : 2 ≤ (flipBit m i j).length := by simpa [flipBit] using hlen
    rw [Bool.eq_false_iff, Ne, crcVerify_iff_crc16_eq_zero hlen', ← hzero]
    exact fun hsame => xor_bit_ne (byteAt m i) hj ((crcFrom_set _ hi _).1 hsame)
  · rw [crcVerify_of_length_lt (by omega)] at hm
    exact absurd hm Bool.false_ne_true

/-- Settles O4: the zero residue, and through it the flipped bits; the CRC streams by its recursion. -/
theorem crcPropertiesHold : Obligations.CrcPropertiesHold :=
  ⟨crcVerify_crcAppend, fun s _ _ => crcVerify_flipBit (crcVerify_crcAppend s),
    fun s => (crc16_append_be16_eq_zero_iff s _).2 rfl, fun _ => crcVerify_iff_crc16_eq_zero,
    crcFrom_append Config.crcInit⟩

end Sys2Proof.Machine
end

section
/-! SUPPORT. The three commands of the CRC unit (40_crc R105 to R107), on an input that is written. -/

namespace Sys2Proof.Machine

/-- CRC.COMPUTE on a written input. -/
theorem exec_crcCompute {s : State} {inp : List Byte} (h : InputIs s inp) :
    exec .crcCompute s = .next (succeed (setCrc (crc16 inp) s)) :=
  withInput_of_inputIs h _

/-- CRC.VERIFY of less than two bytes. -/
theorem exec_crcVerify_short {s : State} (h : s.cmd.iLen.toNat < 2) : exec .crcVerify s = .next (raise .short s) :=
  if_pos h

/-- CRC.VERIFY on a written input of two or more bytes. -/
theorem exec_crcVerify {s : State} {inp : List Byte} (h : InputIs s inp) (hlen : 2 ≤ inp.length) :
    exec .crcVerify s = if crcVerify inp then .next (succeed s) else .next (raise .crc s) := by
  have hn : ¬ inputLen s < 2 := by
    rw [inputLen, ← h.1]
    omega
  exact (if_neg hn).trans (withInput_of_inputIs h _)

/-- CRC.APPEND when two more bytes do not fit. -/
theorem exec_crcAppend_overflow {s : State} (h : s.cfg.bufCap < s.cmd.iLen.toNat + 2) :
    exec .crcAppend s = .next (raise .overflow s) :=
  if_pos h

/-- CRC.APPEND on a written input that leaves room for two more bytes. -/
theorem exec_crcAppend {s : State} {inp : List Byte} (h : InputIs s inp) (hlen : inp.length + 2 ≤ s.cfg.bufCap) :
    exec .crcAppend s = .next (succeed (setCrc (crc16 inp) (setOutput (crcAppend inp) s))) := by
  have hn : ¬ s.cfg.bufCap < inputLen s + 2 := by
    rw [inputLen, ← h.1]
    omega
  exact (if_neg hn).trans (withInput_of_inputIs h _)

/-- Settles O5, with the two fixed values of R105 by evaluation. -/
theorem crcComputeStoresTheCrc : Obligations.CrcComputeStoresTheCrc :=
  ⟨rfl, rfl, by decide +kernel, fun _ _ => exec_crcCompute⟩

/-- Settles O6, by the answer of `verify`. -/
theorem crcVerifyAnswersVerify : Obligations.CrcVerifyAnswersVerify := by
  refine ⟨rfl, fun _ => exec_crcVerify_short, fun s inp h hlen => ?_⟩
  rw [exec_crcVerify h hlen]
  cases crcVerify inp <;> rfl

/-- Settles O7: the string stored is `append(in)`, whose length fits `OLEN`. -/
theorem crcAppendBuildsInputAndCrc : Obligations.CrcAppendBuildsInputAndCrc := by
  refine ⟨rfl, fun _ => exec_crcAppend_overflow, fun s inp hcfg h hlen => ?_⟩
  obtain ⟨-, hcap, -⟩ := params_ranges hcfg
  have hfits : (crcAppend inp).length < 65536 := by
    rw [length_crcAppend]
    omega
  exact ⟨_, exec_crcAppend h hlen, outputIs_setOutput (crcAppend inp) s hfits, rfl⟩

end Sys2Proof.Machine
end

section
/-! SUPPORT. The fragment codec unit's serializers (41_fragment_codec R122 to R128): how long each message is, so
that it fits `OBUF` under every admitted `BUF_CAP`, and what the four commands store. -/

namespace Sys2Proof.Machine

/-! ## The length of each message -/

@[simp] theorem length_hdr (msgId : Half) (totLen : BitVec 32) (fragIdx fragCnt : Half) (payLen : Byte) :
    (hdr msgId totLen fragIdx fragCnt payLen).length = 13 := rfl

@[simp] theorem length_dataHead (msgId : Half) (totLen : BitVec 32) (fragIdx fragCnt : Half) (payload : List Byte) :
    (dataHead msgId totLen fragIdx fragCnt payload).length = 13 + payload.length := by
  rw [dataHead, List.length_append, length_hdr]

@[simp] theorem length_flatMap_be16 (vs : List Half) : (vs.flatMap be16).length = 2 * vs.length := by
  induction vs with
  | nil => rfl
  | cons v t ih =>
    rw [List.flatMap_cons, List.length_append, ih, length_be16, List.length_cons]
    omega

@[simp] theorem length_nackHead (msgId : Half) (indices : List Half) :
    (nackHead msgId indices).length = 5 + 2 * indices.length := by
  rw [nackHead, List.length_append, length_flatMap_be16]
  rfl

@[simp] theorem length_doneHead (msgId : Half) : (doneHead msgId).length = 4 := rfl

/-! ## The index list -/

/-- `n` entries of the index file from `k` on, in file order. -/
theorem IndexFile.take_eq_map (f : IndexFile) (k n : Nat) :
    IndexFile.take f k n = (List.range n).map fun j => IndexFile.read f (k + j) := by
  induction n generalizing k with
  | zero => rfl
  | succ n ih =>
    rw [IndexFile.take, ih, List.range_succ_eq_map, List.map_cons, List.map_map]
    simp [Function.comp_def, Nat.add_comm, Nat.add_left_comm]

/-- The list a NACK is built from is `IDX[0..NCNT)` in file order. -/
theorem indexList_eq (s : State) :
    indexList s = (List.range s.cmd.nCnt.toNat).map fun k => IndexFile.read s.cmd.idxFile k := by
  simp only [indexList, IndexFile.take_eq_map, Nat.zero_add]

/-- The NACK of the index list has `NCNT` itself as its count byte. -/
theorem nackHead_indexList (s : State) :
    nackHead s.cmd.msgId (indexList s) = [0x01, 0x02] ++ be16 s.cmd.msgId ++ [s.cmd.nCnt] ++
      ((List.range s.cmd.nCnt.toNat).map fun k => IndexFile.read s.cmd.idxFile k).flatMap be16 := by
  have hcount : BitVec.ofNat 8 (indexList s).length = s.cmd.nCnt := by simp [indexList]
  rw [nackHead, hcount, indexList_eq]
  rfl

/-! ## The commands -/

/-- FRAG.ENC_HDR stores the header: 13 bytes fit every buffer. -/
theorem exec_fragEncHdr {s : State} (hcfg : s.cfg.ok = true) :
    exec .fragEncHdr s = .next (succeed (setOutput
      (hdr s.cmd.msgId s.cmd.totLen s.cmd.fragIdx s.cmd.fragCnt s.cmd.payLen) s)) := by
  obtain ⟨hcap, -⟩ := params_ranges hcfg
  have hfits : (hdr s.cmd.msgId s.cmd.totLen s.cmd.fragIdx s.cmd.fragCnt s.cmd.payLen).length ≤ s.cfg.bufCap := by
    rw [length_hdr]
    omega
  exact (storeOutput_next (k := fun t => .next (succeed t))).2 ⟨hfits, rfl⟩

/-- FRAG.ENC_DATA of more than 255 bytes. -/
theorem exec_fragEncData_range {s : State} (h : 255 < s.cmd.iLen.toNat) :
    exec .fragEncData s = .next (raise .range s) :=
  if_pos h

/-- FRAG.ENC_DATA on a written input of at most 255 bytes. -/
theorem exec_fragEncData {s : State} {inp : List Byte} (h : InputIs s inp) (hlen : inp.length ≤ 255) :
    exec .fragEncData s =
      storeMessage (dataMsg s.cmd.msgId s.cmd.totLen s.cmd.fragIdx s.cmd.fragCnt inp) s := by
  have hn : ¬ 255 < inputLen s := by
    rw [inputLen, ← h.1]
    omega
  exact (if_neg hn).trans (withInput_of_inputIs h _)

/-- FRAG.BUILD_NACK. -/
theorem exec_fragBuildNack (s : State) :
    exec .fragBuildNack s = storeMessage (nackMsg s.cmd.msgId (indexList s)) s := rfl

/-- FRAG.BUILD_DONE. -/
theorem exec_fragBuildDone (s : State) : exec .fragBuildDone s = storeMessage (doneMsg s.cmd.msgId) s := rfl

/-- Settles O8: the string stored is the header, in the output it leaves. -/
theorem encHdrWritesTheHeader : Obligations.EncHdrWritesTheHeader :=
  ⟨rfl, fun s hcfg => ⟨_, exec_fragEncHdr hcfg, rfl, outputIs_setOutput _ s (by rw [length_hdr]; decide), rfl⟩⟩

/-- Settles O9: the message stored is header, payload and CRC, at most 270 bytes. -/
theorem encDataBuildsTheFragment : Obligations.EncDataBuildsTheFragment := by
  refine ⟨rfl, fun _ => exec_fragEncData_range, ?_⟩
  rintro s inp _ hcfg h hlen rfl
  have hhead := length_dataHead s.cmd.msgId s.cmd.totLen s.cmd.fragIdx s.cmd.fragCnt inp
  obtain ⟨hcap, -⟩ := params_ranges hcfg
  obtain ⟨t, hstore, holen, hout, hframe⟩ := storeMessage_next _ s hcfg (by rw [hhead]; omega)
  exact ⟨t, (exec_fragEncData h hlen).trans hstore, by omega, hout, hframe⟩

/-- Settles O10: the message stored lists the index file, and 255 entries take 517 bytes. -/
theorem buildNackListsTheIndexFile : Obligations.BuildNackListsTheIndexFile := by
  refine ⟨rfl, ?_⟩
  rintro s _ hcfg rfl
  rw [← nackHead_indexList, exec_fragBuildNack]
  have hhead : (nackHead s.cmd.msgId (indexList s)).length = 5 + 2 * s.cmd.nCnt.toNat := by
    rw [length_nackHead, indexList, IndexFile.length_take]
  have hcount := s.cmd.nCnt.isLt
  obtain ⟨hcap, -⟩ := params_ranges hcfg
  obtain ⟨t, hstore, holen, hout, hframe⟩ := storeMessage_next _ s hcfg (by rw [hhead]; omega)
  exact ⟨t, hstore, by omega, hout, hframe⟩

/-- Settles O11: the message stored is six bytes for every `MSGID`. -/
theorem buildDoneBuildsSixBytes : Obligations.BuildDoneBuildsSixBytes := by
  refine ⟨rfl, ?_⟩
  rintro s _ hcfg rfl
  have hhead := length_doneHead s.cmd.msgId
  obtain ⟨hcap, -⟩ := params_ranges hcfg
  obtain ⟨t, hstore, holen, hout, hframe⟩ := storeMessage_next _ s hcfg (by rw [hhead]; omega)
  exact ⟨t, hstore, BitVec.eq_of_toNat_eq holen, hout, hframe⟩

end Sys2Proof.Machine
end

section
/-! SUPPORT. The fragment codec unit's decoder and validating parsers (41_fragment_codec R130 to R139): the tests of
R131 one by one, which the three parsers share, and what a message that passes them delivers. -/

namespace Sys2Proof.Machine

/-! ## The tests before a message is delivered -/

section
variable {s : State} {m : List Byte} {n : Nat} {receive : List Byte → State → Result}

/-- Test (1) of R131: an input that is too short. -/
theorem receiveInput_short (h : s.cmd.iLen.toNat < n) : receiveInput n receive s = .next (s.failed 0x02) :=
  if_pos h

/-- A written input that is long enough is the message. -/
theorem receiveInput_of_inputIs (h : InputIs s m) (hlen : n ≤ m.length) : receiveInput n receive s = receive m s := by
  have hn : ¬ inputLen s < n := by
    rw [inputLen, ← h.1]
    omega
  exact (if_neg hn).trans (withInput_of_inputIs h _)

end

section
variable {tag : Byte} {len : Nat} {m : List Byte} {s : State} {k : Result}

/-- Test (2) of R131: a bad CRC drops the message and counts it (R132). -/
theorem validate_crc (hcrc : crcVerify m = false) : validate tag len m s k = .next s.crcDropped :=
  if_pos hcrc

/-- A message with a good CRC goes on to the tests of its fields. -/
theorem validate_of_crcVerify (hcrc : crcVerify m = true) :
    validate tag len m s k =
      if byteAt m 0 ≠ 0x01 then .next (s.failed 0x04) else if byteAt m 1 ≠ tag then .next (s.failed 0x05)
      else if m.length ≠ len then .next (s.failed 0x06) else k :=
  if_neg (by simp [hcrc])

/-- Test (3) of R131: another version. -/
theorem validate_version (hcrc : crcVerify m = true) (hver : byteAt m 0 ≠ 0x01) :
    validate tag len m s k = .next (s.failed 0x04) := by
  rw [validate_of_crcVerify hcrc, if_pos hver]

/-- Test (4) of R131: another tag. -/
theorem validate_type (hcrc : crcVerify m = true) (hver : byteAt m 0 = 0x01) (htag : byteAt m 1 ≠ tag) :
    validate tag len m s k = .next (s.failed 0x05) := by
  rw [validate_of_crcVerify hcrc, if_neg (not_not_intro hver), if_pos htag]

/-- Test (5) of R131: another length than the fields imply. -/
theorem validate_length (hcrc : crcVerify m = true) (hver : byteAt m 0 = 0x01) (htag : byteAt m 1 = tag)
    (hlen : m.length ≠ len) : validate tag len m s k = .next (s.failed 0x06) := by
  rw [validate_of_crcVerify hcrc, if_neg (not_not_intro hver), if_neg (not_not_intro htag), if_pos hlen]

/-- A message that passes every test is delivered. -/
theorem validate_pass (hcrc : crcVerify m = true) (hver : byteAt m 0 = 0x01) (htag : byteAt m 1 = tag)
    (hlen : m.length = len) : validate tag len m s k = k := by
  rw [validate_of_crcVerify hcrc, if_neg (not_not_intro hver), if_neg (not_not_intro htag),
    if_neg (not_not_intro hlen)]

end

/-! ## What a message delivers -/

theorem length_slice_le (m : List Byte) (a n : Nat) : (slice m a n).length ≤ n := List.length_take_le n _

/-- The entries of a NACK's index list in wire order. -/
theorem getD_getHalves (m : List Byte) (o : Nat) {n k : Nat} (h : k < n) :
    (getHalves m o n).getD k 0 = get16 m (o + 2 * k) := by
  induction n generalizing o k with
  | zero => exact absurd h (Nat.not_lt_zero k)
  | succ n ih =>
    cases k with
    | zero => rfl
    | succ k =>
      have hshift : o + 2 * (k + 1) = o + 2 + 2 * k := by omega
      rw [hshift, ← ih (o + 2) (Nat.lt_of_succ_lt_succ h)]
      rfl

/-- A delivered NACK's indices stand in `IDX` up to its count; the entries from there on keep their values. -/
theorem read_idxFile_deliverNack (m : List Byte) (s : State) (k : Nat) :
    IndexFile.read (deliverNack m s).cmd.idxFile k =
      if k < (byteAt m 4).toNat then get16 m (5 + 2 * k) else IndexFile.read s.cmd.idxFile k := by
  rw [deliverNack_cmd_idxFile, IndexFile.read_writeAll, length_getHalves]
  by_cases hk : k < (byteAt m 4).toNat
  · rw [if_pos (by omega), if_pos hk, Nat.sub_zero, getD_getHalves m 5 hk]
  · rw [if_neg (by omega), if_neg hk]

/-! ## The commands -/

section
variable {s : State} {m : List Byte}

/-- FRAG.DEC_HDR of less than 13 bytes. -/
theorem exec_fragDecHdr_short (h : s.cmd.iLen.toNat < 13) : exec .fragDecHdr s = .next (s.failed 0x02) :=
  if_pos h

/-- FRAG.DEC_HDR reads 13 bytes and looks at none after them. -/
theorem exec_fragDecHdr {h : List Byte} (hcfg : s.cfg.ok = true) (hlen : h.length = 13)
    (hin : 13 ≤ s.cmd.iLen.toNat) (hread : ∀ i, i < 13 → Memory.read s.cmd.ibuf i = h[i]?) :
    exec .fragDecHdr s = .next (succeed (deliverHeader h s)) := by
  obtain ⟨hcap, -⟩ := params_ranges hcfg
  have hfits : 0 + Config.headerSize ≤ s.cfg.bufCap := by
    rw [Config.headerSize]
    omega
  refine (if_neg (Nat.not_lt.2 hin)).trans (withBytes_of_read hfits hlen (fun i hi => ?_) _)
  rw [Nat.zero_add]
  exact hread i hi

/-- FRAG.PARSE_DATA on a written input of at least 15 bytes. -/
theorem exec_fragParseData (h : InputIs s m) (hlen : 15 ≤ m.length) : exec .fragParseData s = receiveData m s :=
  receiveInput_of_inputIs h hlen

/-- FRAG.PARSE_NACK on a written input of at least 7 bytes. -/
theorem exec_fragParseNack (h : InputIs s m) (hlen : 7 ≤ m.length) : exec .fragParseNack s = receiveNack m s :=
  receiveInput_of_inputIs h hlen

/-- FRAG.PARSE_DONE on a written input of at least 6 bytes. -/
theorem exec_fragParseDone (h : InputIs s m) (hlen : 6 ≤ m.length) : exec .fragParseDone s = receiveDone m s :=
  receiveInput_of_inputIs h hlen

/-- FRAG.PARSE without a second byte. -/
theorem exec_fragParse_short (h : s.cmd.iLen.toNat < 2) : exec .fragParse s = .next (s.failed 0x02) :=
  if_pos h

/-- FRAG.PARSE on a written input with a second byte: it reads that byte alone, and the tag in it selects. -/
theorem exec_fragParse (h : InputIs s m) (hlen : 2 ≤ m.length) :
    exec .fragParse s =
      if byteAt m 1 = 0x01 then exec .fragParseData s else if byteAt m 1 = 0x02 then exec .fragParseNack s
      else if byteAt m 1 = 0x03 then exec .fragParseDone s else .next (s.failed 0x05) := by
  obtain ⟨hilen, hcap, hread⟩ := h
  have hn : ¬ inputLen s < 2 := by
    rw [inputLen, ← hilen]
    omega
  have htag : ∀ i, i < 1 → Memory.read s.cmd.ibuf (1 + i) = [byteAt m 1][i]? := by
    intro i hi
    obtain rfl : i = 0 := by omega
    rw [hread 1 hlen, byteAt, List.getD_eq_getElem?_getD, List.getElem?_eq_getElem hlen]
    rfl
  have hfits : 1 + 1 ≤ s.cfg.bufCap := by omega
  have hlen1 : [byteAt m 1].length = 1 := rfl
  exact (if_neg hn).trans (withBytes_of_read hfits hlen1 htag _)

end

/-- Settles O12: the header registers are filled from the 13 bytes read. -/
theorem decHdrDecodesThirteenBytes : Obligations.DecHdrDecodesThirteenBytes :=
  ⟨rfl, fun _ => exec_fragDecHdr_short, fun _ _ => exec_fragDecHdr⟩

/-- A DATA message that passes the tests: its payload is stored, which fits as it is at most 255 bytes. -/
theorem receiveData_pass {s : State} {m : List Byte} (hcfg : s.cfg.ok = true) (hcrc : crcVerify m = true)
    (hver : byteAt m 0 = 0x01) (htag : byteAt m 1 = 0x01) (hlen : m.length = 15 + (byteAt m 12).toNat) :
    receiveData m s = .next (succeed (setCrc (get16 m (m.length - 2))
      (setOutput (slice m 13 (byteAt m 12).toNat) (deliverHeader m s)))) := by
  obtain ⟨hcap, -⟩ := params_ranges hcfg
  have hpay := (byteAt m 12).isLt
  have hslice := length_slice_le m 13 (byteAt m 12).toNat
  have hfits : (slice m 13 (byteAt m 12).toNat).length ≤ (deliverHeader m s).cfg.bufCap := by
    rw [deliverHeader_cfg]
    omega
  exact (validate_pass hcrc hver htag hlen).trans (storeOutput_next.2 ⟨hfits, rfl⟩)

/-- Settles O13: the tests of R131 in their order, then the payload in the output. -/
theorem parseDataValidatesAndDelivers : Obligations.ParseDataValidatesAndDelivers := by
  refine ⟨rfl, fun _ => receiveInput_short, fun s m hcfg h hmin => ?_⟩
  rw [exec_fragParseData h hmin]
  refine ⟨validate_crc, validate_version, validate_type, validate_length, fun hcrc hver htag hlen => ?_⟩
  have hpay := (byteAt m 12).isLt
  have hslice := length_slice_le m 13 (byteAt m 12).toNat
  exact ⟨_, receiveData_pass hcfg hcrc hver htag hlen, outputIs_setOutput _ (deliverHeader m s) (by omega), rfl⟩

/-- Settles O14: the tests of R131 in their order, then the index list entry by entry. -/
theorem parseNackValidatesAndDelivers : Obligations.ParseNackValidatesAndDelivers := by
  refine ⟨rfl, fun _ => receiveInput_short, fun s m h hmin => ?_⟩
  rw [exec_fragParseNack h hmin]
  exact ⟨validate_crc, validate_version, validate_type, validate_length, fun hcrc hver htag hlen =>
    ⟨_, validate_pass hcrc hver htag hlen, read_idxFile_deliverNack m s, rfl⟩⟩

/-- Settles O15: the tests of R131 in their order, then the three registers and the CRC. -/
theorem parseDoneValidatesAndDelivers : Obligations.ParseDoneValidatesAndDelivers := by
  refine ⟨rfl, fun _ => receiveInput_short, fun s m h hmin => ?_⟩
  rw [exec_fragParseDone h hmin]
  exact ⟨validate_crc, validate_version, validate_type, validate_length, validate_pass⟩

/-- Settles O16, by the tag. -/
theorem parseDispatchesOnTheTag : Obligations.ParseDispatchesOnTheTag := by
  refine ⟨rfl, fun _ => exec_fragParse_short, fun s m h hlen => ?_⟩
  rw [exec_fragParse h hlen]
  refine ⟨fun hdata => if_pos hdata, fun hnack => ?_, fun hdone => ?_, fun hdata hnack hdone => ?_⟩
  · rw [hnack]; rfl
  · rw [hdone]; rfl
  · rw [if_neg hdata, if_neg hnack, if_neg hdone]

end Sys2Proof.Machine
end

section
/-! SUPPORT. The API-frame encoder unit (42_api_encoder R151 to R165): the checksum, the escaped form byte by
byte and its length, and what the four commands store. -/

namespace Sys2Proof.Machine

/-! ## The checksum -/

/-- The 8-bit accumulator is the sum of the bytes modulo 256. -/
theorem toNat_sum8 (s : List Byte) : (sum8 s).toNat = (s.map BitVec.toNat).sum % 256 := by
  induction s with
  | nil => rfl
  | cons b t ih => rw [sum8, BitVec.toNat_add, ih, List.map_cons, List.sum_cons, Nat.add_mod_mod]

/-- The checksum is the bitwise complement of the sum. -/
theorem cksum_eq_not (body : List Byte) : cksum body = ~~~sum8 body := BitVec.allOnes_sub_eq_not _

/-- The checksum as a number: the difference does not wrap. -/
theorem toNat_cksum (body : List Byte) : (cksum body).toNat = 255 - (sum8 body).toNat := by
  rw [cksum_eq_not, BitVec.toNat_not]

/-- What the parser's acceptance test rests on (R183): body and checksum together sum to 0xFF. -/
theorem sum8_add_cksum (body : List Byte) : sum8 body + cksum body = 0xFF := by
  rw [cksum_eq_not, BitVec.add_not_self]
  rfl

/-- Settles O27: the checksum is the complement of the sum, and the sum is below 256. -/
theorem checksumClosesTheBody : Obligations.ChecksumClosesTheBody := by
  intro body
  have hcksum := toNat_cksum body
  have hsum := toNat_sum8 body
  refine ⟨by omega, by omega, ?_, sum8_add_cksum body, hsum⟩
  rw [cksum_eq_not]
  exact BitVec.xor_allOnes.symm

/-! ## Escaping -/

/-- The four bytes that follow an escape byte: the escape set xor 0x20. -/
def escapedBytes : List Byte := [0x5E, 0x5D, 0x31, 0x33]

/-- A byte of the escape set becomes the escape byte and its escaped form; every other byte stands for itself. -/
theorem esc1_cases (x : Byte) :
    (∃ y ∈ escapedBytes, y ^^^ 0x20 = x ∧ esc1 x = [0x7D, y]) ∨ (x ∉ Config.escSet ∧ esc1 x = [x]) := by
  by_cases hx : x ∈ Config.escSet
  · have hesc : esc1 x = [0x7D, x ^^^ 0x20] := if_pos (List.contains_iff_mem.2 hx)
    have hform : ∀ z ∈ Config.escSet, z ^^^ 0x20 ∈ escapedBytes := by decide
    exact .inl ⟨x ^^^ 0x20, hform x hx, by rw [BitVec.xor_assoc, BitVec.xor_self, BitVec.xor_zero], hesc⟩
  · exact .inr ⟨hx, if_neg fun hc => hx (List.contains_iff_mem.1 hc)⟩

/-- An escaped form needs no escaping itself. -/
theorem not_mem_escSet_of_mem_escapedBytes : ∀ y ∈ escapedBytes, y ∉ Config.escSet := by decide

@[simp] theorem escape_nil : escape [] = [] := rfl

@[simp] theorem escape_cons (x : Byte) (s : List Byte) : escape (x :: s) = esc1 x ++ escape s := rfl

@[simp] theorem escape_append (s t : List Byte) : escape (s ++ t) = escape s ++ escape t := List.flatMap_append

/-- Of the escape set only the escape byte occurs in an escaped string. -/
theorem eq_escByte_of_mem_escape {s : List Byte} {b : Byte} (hb : b ∈ escape s) (hset : b ∈ Config.escSet) :
    b = 0x7D := by
  obtain ⟨x, -, hbx⟩ := List.mem_flatMap.1 hb
  obtain ⟨y, hy, -, hx⟩ | ⟨hx, hself⟩ := esc1_cases x
  · rw [hx, List.mem_pair] at hbx
    obtain rfl | rfl := hbx
    · rfl
    · exact absurd hset (not_mem_escSet_of_mem_escapedBytes b hy)
  · rw [hself, List.mem_singleton] at hbx
    exact absurd (hbx ▸ hset) hx

/-- An escape byte in an escaped string is followed by an escaped form. -/
theorem getElem?_escape_after_escByte (s : List Byte) {i : Nat} (h : (escape s)[i]? = some 0x7D) :
    ∃ y ∈ escapedBytes, (escape s)[i + 1]? = some y := by
  induction s generalizing i with
  | nil => cases h
  | cons x s ih =>
    rw [escape_cons] at h ⊢
    obtain ⟨y, hy, -, hx⟩ | ⟨hx, hself⟩ := esc1_cases x
    · rw [hx] at h ⊢
      match i, h with
      | 0, _ => exact ⟨y, hy, rfl⟩
      | 1, h =>
        cases h
        exact absurd hy (by decide)
      | i + 2, h => exact ih h
    · rw [hself] at h ⊢
      match i, h with
      | 0, h =>
        cases h
        exact absurd (by decide) hx
      | i + 1, h => exact ih h

/-- Settles O26: the wire form is the delimiter and an escaped string. -/
theorem escapingIsTransparent : Obligations.EscapingIsTransparent := by
  intro body
  have habsent {b : Byte} (hset : b ∈ Config.escSet) (hne : b ≠ 0x7D) : b ∉ escape (unescapedTail body) :=
    fun hb => hne (eq_escByte_of_mem_escape hb hset)
  refine ⟨escape (unescapedTail body), rfl, habsent (by decide) (by decide), habsent (by decide) (by decide),
    habsent (by decide) (by decide), fun i hi => ?_⟩
  obtain ⟨y, hy, hnext⟩ := getElem?_escape_after_escByte _ hi
  rw [hnext]
  simpa [escapedBytes] using hy

/-! ## The length of the wire form -/

/-- Escaping at most doubles a string. -/
theorem length_escape_le (s : List Byte) : (escape s).length ≤ 2 * s.length := by
  induction s with
  | nil => exact Nat.le_refl 0
  | cons x s ih =>
    have hx : (esc1 x).length ≤ 2 := by
      obtain ⟨y, -, -, hx⟩ | ⟨-, hx⟩ := esc1_cases x <;> rw [hx] <;> simp
    rw [escape_cons, List.length_append, List.length_cons]
    omega

/-- The wire form of a body that the parser accepts fits every buffer (R157, R161). -/
theorem length_wire_le {cfg : Params} (hcfg : cfg.ok = true) {body : List Byte} (h : body.length ≤ 256) :
    (wire body).length ≤ cfg.bufCap := by
  obtain ⟨hcap, -⟩ := params_ranges hcfg
  have htail : (unescapedTail body).length = body.length + 3 := by
    rw [unescapedTail, List.length_append, List.length_append, length_be16, List.length_singleton]
    omega
  have hescape := length_escape_le (unescapedTail body)
  rw [wire, List.length_append, List.length_singleton]
  omega

@[simp] theorem length_txBody (f : Byte) (a64 : BitVec 64) (a16 : Half) (r o : Byte) (d : List Byte) :
    (txBody f a64 a16 r o d).length = 14 + d.length := by
  rw [txBody, List.length_append]
  rfl

@[simp] theorem length_atBody (f : Byte) (c : Half) (p : List Byte) : (atBody f c p).length = 4 + p.length := by
  rw [atBody, List.length_append]
  rfl

/-! ## The commands -/

section
variable {s : State} {inp : List Byte}

/-- A wire form longer than `BUF_CAP` is an overflow, in which nothing of the state with the frame id taken is kept; one
that fits is what the output of that state then holds, and nothing else of it changes. -/
theorem sendFrame_spec (hcfg : s.cfg.ok = true) (body : List Byte) (s' : State) :
    (s.cfg.bufCap < (wire body).length → sendFrame body s s' = .next (s.failed 0x08)) ∧
    ((wire body).length ≤ s.cfg.bufCap → ∃ t, sendFrame body s s' = .next t ∧ OutputIs t (wire body) ∧
      t = { s' with cmd := { s'.cmd with oLen := t.cmd.oLen, obuf := t.cmd.obuf, ok := true, err := 0x00 } }) := by
  obtain ⟨-, hcap, -⟩ := params_ranges hcfg
  obtain ⟨hlong, hsend⟩ | ⟨hfits, hsend⟩ := sendFrame_cases body s s'
  · exact ⟨fun _ => hsend, fun hfits => absurd hlong (Nat.not_lt.2 hfits)⟩
  · exact ⟨fun hlong => absurd hlong (Nat.not_lt.2 hfits), fun _ =>
      ⟨_, hsend, outputIs_setOutput (wire body) s' (by omega), rfl⟩⟩

/-- API.BUILD_TX on a written input. -/
theorem exec_apiBuildTx (h : InputIs s inp) :
    exec .apiBuildTx s = sendFrame (txBodyOf s.cmd.fid s inp) s s :=
  withInput_of_inputIs h _

/-- API.BUILD_TX_AUTO on a written input. -/
theorem exec_apiBuildTxAuto (h : InputIs s inp) :
    exec .apiBuildTxAuto s = sendFrame (txBodyOf (autoFrameId s) s inp) s (takeFrameId s) :=
  withInput_of_inputIs h _

/-- API.BUILD_AT on a written input. -/
theorem exec_apiBuildAt (h : InputIs s inp) :
    exec .apiBuildAt s = sendFrame (atBodyOf s.cmd.fid s inp) s s :=
  withInput_of_inputIs h _

/-- API.BUILD_AT_AUTO on a written input. -/
theorem exec_apiBuildAtAuto (h : InputIs s inp) :
    exec .apiBuildAtAuto s = sendFrame (atBodyOf (autoFrameId s) s inp) s (takeFrameId s) :=
  withInput_of_inputIs h _

/-- Taking the frame id writes `FID` and `NEXT_FID` only: the id used, and the generator's step if it gave the id. -/
theorem takeFrameId_eq (s : State) :
    takeFrameId s = { s with cmd := { s.cmd with
      fid := autoFrameId s
      nextFid := if s.cmd.fid = 0 then nextFrameId s.cmd.nextFid else s.cmd.nextFid } } := by
  unfold takeFrameId autoFrameId
  by_cases h : s.cmd.fid = 0
  · simp only [if_pos h]
    rfl
  · simp only [if_neg h]

end

/-- Settles O22: 242 bytes of data make a body of 256. -/
theorem buildTxWritesTheFrame : Obligations.BuildTxWritesTheFrame := by
  refine ⟨rfl, ?_⟩
  rintro s inp _ hcfg h rfl
  rw [exec_apiBuildTx h]
  exact ⟨fun hlen => length_wire_le hcfg ((length_txBody ..).trans_le (by omega)), sendFrame_spec hcfg _ s⟩

/-- Settles O24: 252 parameter bytes make a body of 256. -/
theorem buildAtWritesTheFrame : Obligations.BuildAtWritesTheFrame := by
  refine ⟨rfl, ?_⟩
  rintro s inp _ hcfg h rfl
  rw [exec_apiBuildAt h]
  exact ⟨fun hlen => length_wire_le hcfg ((length_atBody ..).trans_le (by omega)), sendFrame_spec hcfg _ s⟩

/-- Settles O23: the frame id is taken in the state that is answered on success, and only there. -/
theorem buildTxAutoAssignsTheFrameId : Obligations.BuildTxAutoAssignsTheFrameId := by
  refine ⟨rfl, ?_⟩
  rintro s inp _ _ hcfg h rfl rfl
  rw [exec_apiBuildTxAuto h, takeFrameId_eq]
  exact sendFrame_spec hcfg _ _

/-- Settles O25, as O23 with the AT Command body. -/
theorem buildAtAutoAssignsTheFrameId : Obligations.BuildAtAutoAssignsTheFrameId := by
  refine ⟨rfl, ?_⟩
  rintro s inp _ _ hcfg h rfl rfl
  rw [exec_apiBuildAtAuto h, takeFrameId_eq]
  exact sendFrame_spec hcfg _ _

end Sys2Proof.Machine
end

section
/-! SUPPORT. The round trip of 42_api_encoder section 6 (R164): a wire form written to `RXDATA` in any state
runs silently up to its last byte, which dispatches the body; and the two bodies the encoder builds decode to their
fields. -/

namespace Sys2Proof.Machine

/-! ## Runs over pending bytes -/

/-- A run goes on where its first part ended. -/
theorem runSteps_add {m : Nat} (n : Nat) {s t : State} (h : runSteps m s = .next t) :
    runSteps (m + n) s = runSteps n t := by
  induction m generalizing s with
  | zero =>
    cases h
    rw [Nat.zero_add]
  | succ m ih =>
    rw [Nat.succ_add]
    simp only [runSteps] at h ⊢
    cases hstep : step s with
    | next u => rw [hstep] at h; exact ih h
    | fault f => rw [hstep] at h; cases h
    | refused r => rw [hstep] at h; cases h

/-- A run of one step. -/
theorem runSteps_one (s : State) : runSteps 1 s = step s := by
  unfold runSteps
  cases step s <;> rfl

/-- A pending write to `RXDATA` is the parser step of its byte, whatever the parameters are. -/
theorem step_rxWrite {s : State} {b : Byte} {rest : List HostAction} (h : s.input = rxWrite b :: rest) :
    step s = exec (decodeRx b) { s with input := rest } := by
  have hbyte : (b.setWidth 64).setWidth 8 = b := by
    rw [BitVec.setWidth_setWidth_of_le _ (by decide), BitVec.setWidth_eq]
  have hplace : placeAt s.cfg 0x00001 = some .rxData := rfl
  simp only [step, h, rxWrite, runAction, hplace, writePlace, hbyte, runByte]

/-- Written to `RXDATA`, the bytes `w` take the parser from `p` to `q`, and change nothing else: there is no event. -/
def Silent (w : List Byte) (p q : ParserUnit) : Prop :=
  ∀ (s : State) (rest : List HostAction), s.par = p → s.input = w.map rxWrite ++ rest →
    (∀ k, k < w.length → ∃ t, runSteps k s = .next t ∧ t.outputs = s.outputs) ∧
    runSteps w.length s = .next { s with par := q, input := rest }

theorem silent_nil (p : ParserUnit) : Silent [] p p := by
  rintro s rest rfl hin
  obtain rfl : s.input = rest := hin
  exact ⟨fun k hk => absurd hk (Nat.not_lt_zero k), rfl⟩

/-- A silent string and one byte more: nothing is output before that byte, and at it the run is its parser step. -/
theorem Silent.runSteps_concat {w : List Byte} {b : Byte} {p q : ParserUnit} (hw : Silent w p q) {s : State}
    {rest : List HostAction} (hp : s.par = p) (hin : s.input = (w ++ [b]).map rxWrite ++ rest) :
    (∀ k, k < (w ++ [b]).length → ∃ t, runSteps k s = .next t ∧ t.outputs = s.outputs) ∧
    runSteps (w ++ [b]).length s = exec (decodeRx b) { s with par := q, input := rest } := by
  rw [List.map_append, List.append_assoc] at hin
  obtain ⟨hquiet, hrun⟩ := hw s _ hp hin
  rw [List.length_append, List.length_singleton]
  refine ⟨fun k hk => ?_, ?_⟩
  · by_cases hlast : k < w.length
    · exact hquiet k hlast
    · obtain rfl : k = w.length := by omega
      exact ⟨_, hrun, rfl⟩
  · exact ((runSteps_add 1 hrun).trans (runSteps_one _)).trans (step_rxWrite rfl)

/-- A byte whose parser step only moves the parser is silent. -/
theorem silent_singleton {b : Byte} {p q : ParserUnit}
    (h : ∀ s : State, s.par = p → exec (decodeRx b) s = .next { s with par := q }) : Silent [b] p q := by
  intro s rest hp hin
  obtain ⟨hquiet, hrun⟩ := (silent_nil p).runSteps_concat hp hin
  exact ⟨hquiet, hrun.trans (h _ rfl)⟩

/-- Silent strings one after the other are silent. -/
theorem Silent.append {v w : List Byte} {p q r : ParserUnit} (hv : Silent v p q) (hw : Silent w q r) :
    Silent (v ++ w) p r := by
  intro s rest hp hin
  rw [List.map_append, List.append_assoc] at hin
  obtain ⟨hquiet, hrun⟩ := hv s _ hp hin
  obtain ⟨hquiet', hrun'⟩ := hw { s with par := q, input := w.map rxWrite ++ rest } rest rfl rfl
  rw [List.length_append]
  refine ⟨fun k hk => ?_, (runSteps_add w.length hrun).trans hrun'⟩
  by_cases hkv : k < v.length
  · exact hquiet k hkv
  · obtain ⟨j, rfl⟩ := Nat.exists_eq_add_of_le (Nat.not_lt.1 hkv)
    rw [runSteps_add j hrun]
    exact hquiet' j (by omega)

/-! ## One byte of an escaped string -/

section
variable {p q : ParserUnit}

/-- RX.BYTE outside `WaitingForStart`: the de-escaped byte is consumed with the latch cleared. -/
theorem execRxByte_of_ne {s : State} (b : Byte) (hp : s.par.pstate ≠ .waitingForStart) :
    execRxByte b s = consume (deEscape s.par.esc b) (setEsc false s) :=
  if_neg hp

/-- What stands for one byte is silent up to its last byte, at which a parser within a frame consumes the byte itself:
it never meets a 0x7D with the latch set, so `ESC_REPEAT` decides nothing. -/
theorem esc1_eq_append (x : Byte) (hp : p.pstate ≠ .waitingForStart) (he : p.esc = false) :
    ∃ (v : List Byte) (b : Byte) (m : ParserUnit), esc1 x = v ++ [b] ∧ Silent v p m ∧
      ∀ s : State, s.par = m → exec (decodeRx b) s = consume x { s with par := p } := by
  obtain ⟨y, hy, rfl, hx⟩ | ⟨hx, hself⟩ := esc1_cases x
  · refine ⟨[0x7D], y, { p with esc := true }, hx, silent_singleton ?_, ?_⟩
    · rintro s rfl
      exact (if_neg hp).trans (if_pos he)
    · rintro s hm
      obtain ⟨rfl, -⟩ | ⟨rfl, -⟩ | ⟨-, -, hd⟩ := decodeRx_cases y
      · exact absurd hy (by decide)
      · exact absurd hy (by decide)
      · have hs : { s with par := p } = setEsc false s := by
          rw [setEsc, hm, ← he]
        have hesc : s.par.esc = true := by rw [hm]
        rw [hd, exec_rxByte, execRxByte_of_ne y (by rw [hm]; exact hp), hesc, hs]
        rfl
  · refine ⟨[], x, p, hself, silent_nil p, ?_⟩
    rintro s rfl
    obtain ⟨rfl, -⟩ | ⟨rfl, -⟩ | ⟨-, -, hd⟩ := decodeRx_cases x
    · exact absurd (by decide) hx
    · exact absurd (by decide) hx
    · have hs : setEsc false s = s := by rw [setEsc, ← he]
      rw [hd, exec_rxByte, execRxByte_of_ne x hp, he, hs]
      rfl

/-- What stands for one byte is silent when consuming the byte only moves the parser. -/
theorem silent_esc1 {x : Byte} (hp : p.pstate ≠ .waitingForStart) (he : p.esc = false)
    (h : ∀ s : State, s.par = p → consume x s = .next { s with par := q }) : Silent (esc1 x) p q := by
  obtain ⟨v, b, m, hx, hv, hb⟩ := esc1_eq_append x hp he
  rw [hx]
  exact hv.append (silent_singleton fun s hs => (hb s hs).trans (h _ rfl))

/-! ## One byte in each state of a frame -/

/-- The delimiter opens a frame in every state (R173). -/
theorem silent_startDelim (p : ParserUnit) :
    Silent [0x7E] p { p with pstate := .lengthMsb, esc := false, sum := 0, flen := 0, idx := 0 } :=
  silent_singleton (by rintro s rfl; rfl)

/-- The first length byte is not checked (R176). -/
theorem silent_lengthMsb (hp : p.pstate = .lengthMsb) (he : p.esc = false) (d : Byte) :
    Silent (esc1 d) p { p with flen := d.setWidth 16 <<< 8, pstate := .lengthLsb } := by
  refine silent_esc1 (by simp [hp]) he ?_
  rintro s rfl
  rw [consume, hp]
  rfl

/-- A length in range begins the body (R177 to R179). -/
theorem silent_lengthLsb (hp : p.pstate = .lengthLsb) (he : p.esc = false) {d : Byte}
    (hok : lengthOk (p.flen + d.setWidth 16) = true) :
    Silent (esc1 d) p { p with flen := p.flen + d.setWidth 16, idx := 0, pstate := .frameData } := by
  refine silent_esc1 (by simp [hp]) he ?_
  rintro s rfl
  rw [consume, hp]
  exact if_pos hok

/-- A body byte is stored, summed and counted (R180, R181). -/
theorem silent_frameData (hp : p.pstate = .frameData) (he : p.esc = false) (d : Byte) (hidx : p.idx.toNat < 256) :
    Silent (esc1 d) p { p with
      fbuf := Memory.write p.idx.toNat d p.fbuf
      sum := p.sum + d
      idx := p.idx + 1
      pstate := if (p.idx + 1).toNat = p.flen.toNat then .checksum else .frameData } := by
  refine silent_esc1 (by simp [hp]) he ?_
  rintro s rfl
  rw [consume, hp]
  exact if_pos hidx

end

/-! ## A whole frame -/

/-- Within a frame whose length is `n`: `f` is received and summed, and the latch is clear. -/
structure Receiving (st : PState) (n : Nat) (f : List Byte) (p : ParserUnit) : Prop where
  pstate : p.pstate = st
  esc : p.esc = false
  flen : p.flen.toNat = n
  body : ReceivedIs p f
  sum : p.sum = sum8 f

/-- The two length bytes, as the parser assembles them. -/
theorem flen_join (v : Half) :
    (v.extractLsb' 8 8).setWidth 16 <<< 8 + (v.extractLsb' 0 8).setWidth 16 = v := by
  apply BitVec.eq_of_toNat_eq
  have hv := v.isLt
  simp only [BitVec.toNat_add, BitVec.toNat_shiftLeft, BitVec.toNat_setWidth, BitVec.extractLsb'_toNat,
    Nat.shiftLeft_eq, Nat.shiftRight_eq_div_pow]
  omega

/-- The two bytes of a length in range begin the body. -/
theorem silent_length {p : ParserUnit} (hp : p.pstate = .lengthMsb) (he : p.esc = false) {v : Half}
    (hok : lengthOk v = true) :
    Silent (escape (be16 v)) p { p with flen := v, idx := 0, pstate := .frameData } := by
  have hlsb := silent_lengthLsb (d := v.extractLsb' 0 8)
    (p := { p with flen := (v.extractLsb' 8 8).setWidth 16 <<< 8, pstate := .lengthLsb }) rfl he
    (by simpa only [flen_join] using hok)
  simp only [flen_join] at hlsb
  exact (silent_lengthMsb hp he _).append (hlsb.append (silent_nil _))

/-- From any state, the delimiter and a length in range silently begin a body. -/
theorem silent_header (p : ParserUnit) {n : Nat} (hlo : 1 ≤ n) (hhi : n ≤ 256) :
    ∃ q, Silent ([0x7E] ++ escape (be16 (BitVec.ofNat 16 n))) p q ∧ Receiving .frameData n [] q := by
  have hn : (BitVec.ofNat 16 n).toNat = n := by
    rw [BitVec.toNat_ofNat]
    omega
  have hok : lengthOk (BitVec.ofNat 16 n) = true := (lengthOk_iff _).2 (by omega)
  exact ⟨_, (silent_startDelim p).append (silent_length rfl rfl hok), rfl, rfl, hn, receivedIs_nil rfl, rfl⟩

/-- A body byte is received silently; it may be the last. -/
theorem silent_bodyByte {n : Nat} (hn : n ≤ 256) {f : List Byte} {p : ParserUnit} (hp : Receiving .frameData n f p)
    (hlt : f.length < n) (d : Byte) :
    ∃ q, Silent (esc1 d) p q ∧ Receiving (if f.length + 1 = n then .checksum else .frameData) n (f ++ [d]) q := by
  obtain ⟨hst, hesc, hflen, hbody, hsum⟩ := hp
  have hidx : p.idx.toNat = f.length := hbody.1.symm
  have hnext : (p.idx + 1).toNat = p.idx.toNat + 1 := by bv_omega
  refine ⟨_, silent_frameData hst hesc d (by omega), ?_, hesc, hflen, receivedIs_append hbody hnext rfl, ?_⟩
  · rw [hnext, hflen, hidx]
  · simp [sum8_append, sum8, hsum]

/-- Every body byte is received silently, and the last one completes the body. -/
theorem silent_body {n : Nat} (hn : n ≤ 256) {f g : List Byte} {p : ParserUnit} (hp : Receiving .frameData n f p)
    (hg : g ≠ []) (hlen : f.length + g.length = n) :
    ∃ q, Silent (escape g) p q ∧ Receiving .checksum n (f ++ g) q := by
  induction g generalizing f p with
  | nil => exact absurd rfl hg
  | cons d g ih =>
    rw [List.length_cons] at hlen
    obtain ⟨m, hd, hm⟩ := silent_bodyByte hn hp (by omega) d
    cases g with
    | nil =>
      rw [if_pos (by simpa using hlen)] at hm
      exact ⟨m, hd.append (silent_nil m), hm⟩
    | cons e g =>
      rw [List.length_cons] at hlen
      rw [if_neg (by omega)] at hm
      obtain ⟨q, hrest, hq⟩ := ih hm (List.cons_ne_nil e g) (by simp; omega)
      rw [List.append_assoc] at hq
      exact ⟨q, hd.append hrest, hq⟩

/-- The checksum byte of a complete body dispatches it, the parser idle (R182 to R185). -/
theorem consume_cksum {f : List Byte} {s : State} (hp : Receiving .checksum f.length f s.par) :
    consume (cksum f) s = dispatchFrame f { s with par := { s.par with sum := 0xFF, pstate := .waitingForStart } } := by
  obtain ⟨hst, -, hflen, ⟨-, hread⟩, hsum⟩ := hp
  have htotal : s.par.sum + cksum f = 0xFF := by rw [hsum, sum8_add_cksum]
  have hbytes : readBytes .fbuf s.par.fbuf 0 s.par.flen.toNat = .ok f := by
    rw [readBytes_ok_iff, hflen]
    exact ⟨rfl, by simpa using hread⟩
  simp only [consume, hst, consumeChecksum, htotal, hbytes, checksumOk, beq_self_eq_true, if_true]

/-- The wire form of a body that the parser accepts, written in any state: every byte but the last is silent, and the
last one dispatches the body, the parser idle with its latch clear. -/
theorem runSteps_wire {s : State} {body : List Byte} {rest : List HostAction} (hlo : 1 ≤ body.length)
    (hhi : body.length ≤ 256) (hin : s.input = (wire body).map rxWrite ++ rest) :
    (∀ k, k < (wire body).length → ∃ t, runSteps k s = .next t ∧ t.outputs = s.outputs) ∧
    ∃ q, q.pstate = .waitingForStart ∧ q.esc = false ∧
      runSteps (wire body).length s = dispatchFrame body { s with par := q, input := rest } := by
  obtain ⟨p, hheader, hp⟩ := silent_header s.par hlo hhi
  obtain ⟨q, hbody, hq⟩ := silent_body hhi hp (List.ne_nil_of_length_pos hlo) (Nat.zero_add _)
  rw [List.nil_append] at hq
  obtain ⟨v, b, m, hcksum, hv, hb⟩ := esc1_eq_append (cksum body) (by simp [hq.pstate]) hq.esc
  have hwire : wire body = ([0x7E] ++ escape (be16 (BitVec.ofNat 16 body.length)) ++ escape body ++ v) ++ [b] := by
    simp only [wire, unescapedTail, escape_append, escape_cons, escape_nil, hcksum, List.append_assoc,
      List.append_nil]
    rfl
  rw [hwire] at hin ⊢
  obtain ⟨hquiet, hrun⟩ := ((hheader.append hbody).append hv).runSteps_concat rfl hin
  refine ⟨hquiet, { q with sum := 0xFF, pstate := .waitingForStart }, rfl, hq.esc, ?_⟩
  exact (hrun.trans (hb _ rfl)).trans (consume_cksum hq)

/-! ## The two bodies the encoder builds -/

/-- A body of a known type with all its fixed fields is read field by field. -/
theorem parseBody_of_le {f : List Byte} {n : Nat} (ht : minBodyLen (byteAt f 0) = some n) (hlen : n ≤ f.length) :
    parseBody f = bodyFields f := by
  rw [parseBody, ht]
  exact if_neg (Nat.not_lt.2 hlen)

/-- The Transmit Request body decodes to its operands. -/
theorem parseBody_txBody (f : Byte) (a64 : BitVec 64) (a16 : Half) (r o : Byte) (d : List Byte) :
    parseBody (txBody f a64 a16 r o d) = .txRequest f a64 a16 r o d := by
  have h64 : get64 (txBody f a64 a16 r o d) 2 = a64 := by
    simpa [txBody] using get64_be64 [Config.ftTxRequest, f] (be16 a16 ++ [r, o] ++ d) a64
  have h16 : get16 (txBody f a64 a16 r o d) 10 = a16 := by
    simpa [txBody] using get16_be16 ([Config.ftTxRequest, f] ++ be64 a64) ([r, o] ++ d) a16
  have hfields : bodyFields (txBody f a64 a16 r o d) =
      .txRequest f (get64 (txBody f a64 a16 r o d) 2) (get16 (txBody f a64 a16 r o d) 10) r o d := rfl
  rw [parseBody_of_le (n := 14) rfl (by rw [length_txBody]; omega), hfields, h64, h16]

/-- The AT Command body decodes to its operands. -/
theorem parseBody_atBody (f : Byte) (c : Half) (p : List Byte) : parseBody (atBody f c p) = .atCommand f c p := by
  have h16 : get16 (atBody f c p) 2 = c := by
    simpa [atBody] using get16_be16 [Config.ftAtCommand, f] p c
  have hfields : bodyFields (atBody f c p) = .atCommand f (get16 (atBody f c p) 2) p := rfl
  rw [parseBody_of_le (n := 4) rfl (by rw [length_atBody]; omega), hfields, h16]

/-- A wire form whose body is dispatched to the event `e`, written in any state, gives `e` at its last byte and no event
before. -/
theorem runSteps_wire_event {u : State} {body : List Byte} {rest : List HostAction} {e : Event}
    (hlo : 1 ≤ body.length) (hhi : body.length ≤ 256) (he : ∀ s, dispatchFrame body s = .next (emit e s))
    (hin : u.input = (wire body).map rxWrite ++ rest) :
    (∀ k, k < (wire body).length → ∃ v, runSteps k u = .next v ∧ v.outputs = u.outputs) ∧
    ∃ v, runSteps (wire body).length u = .next v ∧ v.outputs = u.outputs ++ [.event e] := by
  obtain ⟨hquiet, q, -, -, hrun⟩ := runSteps_wire hlo hhi hin
  exact ⟨hquiet, _, hrun.trans (he _), rfl⟩

theorem dispatchFrame_txBody (f : Byte) (a64 : BitVec 64) (a16 : Half) (r o : Byte) (d : List Byte) (s : State) :
    dispatchFrame (txBody f a64 a16 r o d) s = .next (emit (.txRequest f a64 a16 r o d) s) := by
  rw [dispatchFrame, parseBody_txBody]
  rfl

theorem dispatchFrame_atBody (f : Byte) (c : Half) (p : List Byte) (s : State) :
    dispatchFrame (atBody f c p) s = .next (emit (.atCommand f c p) s) := by
  rw [dispatchFrame, parseBody_atBody]
  rfl

/-- Settles O29: each body fits `BUF_CAP` in its wire form, which the parser dispatches to the record of the body. -/
theorem builtFramesParseBack : Obligations.BuiltFramesParseBack := by
  intro s inp hcfg h
  refine ⟨fun hlen => ?_, fun hlen => ?_⟩
  · have hbody : (txBodyOf s.cmd.fid s inp).length = 14 + inp.length := length_txBody ..
    obtain ⟨t, hsend, hout, -⟩ := (sendFrame_spec hcfg _ s).2 (length_wire_le hcfg (hbody.trans_le hlen))
    exact ⟨t, _, (exec_apiBuildTx h).trans hsend, hout, fun u rest hin =>
      runSteps_wire_event (by omega) (by omega) (fun _ => dispatchFrame_txBody ..) hin⟩
  · have hbody : (atBodyOf s.cmd.fid s inp).length = 4 + inp.length := length_atBody ..
    obtain ⟨t, hsend, hout, -⟩ := (sendFrame_spec hcfg _ s).2 (length_wire_le hcfg (hbody.trans_le hlen))
    exact ⟨t, _, (exec_apiBuildAt h).trans hsend, hout, fun u rest hin =>
      runSteps_wire_event (by omega) (by omega) (fun _ => dispatchFrame_atBody ..) hin⟩

end Sys2Proof.Machine
end

section
/-! SUPPORT. The frame-id generator (42_api_encoder R159, R165): its integer laws, and that every step of the machine
keeps `NEXT_FID`, advances it or resets it. -/

namespace Sys2Proof.Machine

/-! ## The generator by itself -/

/-- On 1..255 the next id is the id modulo 255, plus 1. -/
theorem toNat_nextFrameId {f : Byte} (h : f ≠ 0) : (nextFrameId f).toNat = f.toNat % 255 + 1 := by
  unfold nextFrameId
  by_cases hlast : f = 255
  · rw [if_pos hlast, hlast]
    rfl
  · have hpos : f.toNat ≠ 0 := fun hzero => h (BitVec.eq_of_toNat_eq hzero)
    rw [if_neg hlast]
    bv_omega

/-- The generator stays on 1..255. -/
theorem nextFrameId_ne_zero {f : Byte} (h : f ≠ 0) : nextFrameId f ≠ 0 := by
  have hnext := toNat_nextFrameId h
  intro hzero
  rw [hzero] at hnext
  exact Nat.succ_ne_zero _ hnext.symm

/-- The id after `n` steps from the reset value. -/
theorem iterate_nextFrameId (n : Nat) :
    (nextFrameId^[n] 1).toNat = n % 255 + 1 ∧ nextFrameId^[n] 1 ≠ 0 := by
  induction n with
  | zero => decide
  | succ n ih =>
    obtain ⟨hn, hne⟩ := ih
    rw [Function.iterate_succ_apply', toNat_nextFrameId hne, hn]
    exact ⟨by omega, nextFrameId_ne_zero hne⟩

/-! ## What holds of every next state an operation answers -/

/-- Every next state that `r` answers satisfies `P`; a fault answers none. -/
def EveryNext (P : State → Prop) (r : Result) : Prop := ∀ t, r = .next t → P t

section
variable {P : State → Prop} {s s' : State}

theorem everyNext_next (h : P s) : EveryNext P (.next s) := by
  intro t ht
  cases ht
  exact h

theorem everyNext_ite {c : Prop} [Decidable c] {r r' : Result} (h : EveryNext P r) (h' : EveryNext P r') :
    EveryNext P (if c then r else r') := by
  split
  · exact h
  · exact h'

theorem everyNext_withBytes {a n : Nat} {k : List Byte → Result} (h : ∀ b, EveryNext P (k b)) :
    EveryNext P (withBytes a n s k) := by
  intro t ht
  obtain ⟨b, -, -, hb⟩ := withBytes_next ht
  exact h b t hb

theorem everyNext_withInput {k : List Byte → Result} (h : ∀ inp, EveryNext P (k inp)) :
    EveryNext P (withInput s k) :=
  everyNext_withBytes h

theorem everyNext_storeOutput {o : List Byte} {k : State → Result} (h : EveryNext P (k (setOutput o s))) :
    EveryNext P (storeOutput o s k) := by
  intro t ht
  obtain ⟨-, hk⟩ := storeOutput_next.1 ht
  exact h t hk

theorem everyNext_storeMessage {m : List Byte}
    (h : P (succeed (setCrc (get16 m (m.length - 2)) (setOutput m s)))) : EveryNext P (storeMessage m s) :=
  everyNext_storeOutput (everyNext_next h)

theorem everyNext_sendFrame {body : List Byte} (hfail : P (raise .overflow s))
    (h : P (succeed (setOutput (wire body) s'))) : EveryNext P (sendFrame body s s') :=
  everyNext_ite (everyNext_next hfail) (everyNext_next h)

theorem everyNext_validate {tag : Byte} {len : Nat} {m : List Byte} {k : Result} (hdrop : P (raiseCrcDrop s))
    (hfail : ∀ e, P (raise e s)) (h : EveryNext P k) : EveryNext P (validate tag len m s k) :=
  everyNext_ite (everyNext_next hdrop) (everyNext_ite (everyNext_next (hfail _))
    (everyNext_ite (everyNext_next (hfail _)) (everyNext_ite (everyNext_next (hfail _)) h)))

theorem everyNext_receiveInput {n : Nat} {receive : List Byte → State → Result} (hfail : P (raise .short s))
    (h : ∀ m, EveryNext P (receive m s)) : EveryNext P (receiveInput n receive s) :=
  everyNext_ite (everyNext_next hfail) (everyNext_withInput h)

end

/-! ## The parser unit leaves the command unit alone -/

theorem dispatchFrame_cmd (f : List Byte) (s : State) : EveryNext (fun t => t.cmd = s.cmd) (dispatchFrame f s) := by
  intro t ht
  obtain ⟨-, hx⟩ | ⟨-, e, hx⟩ := dispatchFrame_cases f s <;> rw [hx] at ht <;> cases ht <;> rfl

/-- Consuming a byte leaves the command unit alone, in every state of the parser. -/
theorem consume_cmd (d : Byte) (s : State) : EveryNext (fun t => t.cmd = s.cmd) (consume d s) := by
  intro t ht
  unfold consume at ht
  cases hp : s.par.pstate <;> rw [hp] at ht
  case waitingForStart => cases ht; rfl
  case lengthMsb => cases ht; rfl
  case lengthLsb =>
    obtain ⟨-, hx⟩ | ⟨-, hx⟩ := consumeLengthLsb_cases d s <;> rw [hx] at ht <;> cases ht <;> rfl
  case frameData =>
    obtain ⟨-, rfl⟩ := consumeFrameData_next ht
    rfl
  case checksum =>
    obtain ⟨-, rfl⟩ | ⟨-, f, -, hdis⟩ := consumeChecksum_next ht
    · rfl
    · have hkept := dispatchFrame_cmd f _ t hdis
      exact hkept

theorem execRxEscape_cmd (s : State) : EveryNext (fun t => t.cmd = s.cmd) (execRxEscape s) := by
  intro t ht
  obtain ⟨-, hx⟩ | ⟨-, -, hx⟩ | ⟨-, -, -, hx⟩ | ⟨-, -, -, hx⟩ := execRxEscape_cases s <;> rw [hx] at ht
  case inr.inr.inr =>
    have hkept := consume_cmd _ _ t ht
    exact hkept
  all_goals
    cases ht
    rfl

theorem execRxByte_cmd (b : Byte) (s : State) : EveryNext (fun t => t.cmd = s.cmd) (execRxByte b s) :=
  everyNext_ite (everyNext_next rfl) (consume_cmd _ (setEsc false s))

/-! ## The generator in the machine -/

/-- From `s` to `t`, `NEXT_FID` keeps its value, advances, or is reset. -/
def FidStep (s t : State) : Prop :=
  t.cmd.nextFid = s.cmd.nextFid ∨ t.cmd.nextFid = nextFrameId s.cmd.nextFid ∨ t.cmd.nextFid = 1

section
variable {s t : State}

theorem fidStep_refl (s : State) : FidStep s s := .inl rfl

theorem fidStep_of_cmd_eq {r : Result} (h : EveryNext (fun t => t.cmd = s.cmd) r) : EveryNext (FidStep s) r :=
  fun t ht => .inl (congrArg CommandUnit.nextFid (h t ht))

/-- Generator steps end on 1..255 when they begin there. -/
theorem FidStep.ne_zero (h : FidStep s t) (hs : s.cmd.nextFid ≠ 0) : t.cmd.nextFid ≠ 0 := by
  obtain hkept | hnext | hreset := h
  · rwa [hkept]
  · rw [hnext]
    exact nextFrameId_ne_zero hs
  · rw [hreset]
    decide

/-- Taking the frame id keeps the generator's value or advances it. -/
theorem fidStep_takeFrameId (s : State) : FidStep s (takeFrameId s) := by
  rw [takeFrameId_eq]
  by_cases hzero : s.cmd.fid = 0
  · exact .inr (.inl (if_pos hzero))
  · exact .inl (if_neg hzero)

theorem storeMessage_fidStep (m : List Byte) : EveryNext (FidStep s) (storeMessage m s) :=
  everyNext_storeMessage (.inl rfl)

/-- Sending a frame writes the output alone of the state with the frame id taken. -/
theorem sendFrame_fidStep {s' : State} (body : List Byte) (h : FidStep s s') :
    EveryNext (FidStep s) (sendFrame body s s') :=
  everyNext_sendFrame (fidStep_refl s) h

/-- A message keeps the generator's value, whether it passes the tests of R131 or not. -/
theorem receiveData_fidStep (m : List Byte) : EveryNext (FidStep s) (receiveData m s) :=
  everyNext_validate (.inl rfl) (fun _ => .inl rfl) (everyNext_storeOutput (everyNext_next (.inl rfl)))

theorem receiveNack_fidStep (m : List Byte) : EveryNext (FidStep s) (receiveNack m s) :=
  everyNext_validate (.inl rfl) (fun _ => .inl rfl) (everyNext_next (.inl rfl))

theorem receiveDone_fidStep (m : List Byte) : EveryNext (FidStep s) (receiveDone m s) :=
  everyNext_validate (.inl rfl) (fun _ => .inl rfl) (everyNext_next (.inl rfl))

/-- Every instruction makes a generator step: the two `_AUTO` builders may advance it, SYS.RESET resets it, and every
other case keeps it. -/
theorem exec_fidStep (i : Instr) (s : State) : EveryNext (FidStep s) (exec i s) := by
  have keep {t : State} (h : t.cmd.nextFid = s.cmd.nextFid) : EveryNext (FidStep s) (.next t) :=
    everyNext_next (.inl h)
  cases i with
  | crcCompute => exact everyNext_withInput fun _ => keep rfl
  | crcVerify => exact everyNext_ite (keep rfl) (everyNext_withInput fun _ => everyNext_ite (keep rfl) (keep rfl))
  | crcAppend => exact everyNext_ite (keep rfl) (everyNext_withInput fun _ => keep rfl)
  | fragEncHdr => exact everyNext_storeOutput (k := fun t => .next (succeed t)) (keep rfl)
  | fragEncData => exact everyNext_ite (keep rfl) (everyNext_withInput fun _ => storeMessage_fidStep _)
  | fragBuildNack => exact storeMessage_fidStep _
  | fragBuildDone => exact storeMessage_fidStep _
  | fragDecHdr => exact everyNext_ite (keep rfl) (everyNext_withBytes fun _ => keep rfl)
  | fragParseData => exact everyNext_receiveInput (.inl rfl) receiveData_fidStep
  | fragParseNack => exact everyNext_receiveInput (.inl rfl) receiveNack_fidStep
  | fragParseDone => exact everyNext_receiveInput (.inl rfl) receiveDone_fidStep
  | fragParse =>
    exact everyNext_ite (keep rfl) (everyNext_withBytes fun _ =>
      everyNext_ite (everyNext_receiveInput (.inl rfl) receiveData_fidStep)
        (everyNext_ite (everyNext_receiveInput (.inl rfl) receiveNack_fidStep)
          (everyNext_ite (everyNext_receiveInput (.inl rfl) receiveDone_fidStep) (keep rfl))))
  | apiBuildTx => exact everyNext_withInput fun _ => sendFrame_fidStep _ (fidStep_refl s)
  | apiBuildTxAuto => exact everyNext_withInput fun _ => sendFrame_fidStep _ (fidStep_takeFrameId s)
  | apiBuildAt => exact everyNext_withInput fun _ => sendFrame_fidStep _ (fidStep_refl s)
  | apiBuildAtAuto => exact everyNext_withInput fun _ => sendFrame_fidStep _ (fidStep_takeFrameId s)
  | sysReset => exact everyNext_next (.inr (.inr rfl))
  | frameTxRequest | frameAtCommand | frameRxPacket | frameExplicitRx | frameTxStatus | frameAtResponse =>
    exact keep rfl
  | msgData => exact receiveData_fidStep _
  | msgNack => exact receiveNack_fidStep _
  | msgDone => exact receiveDone_fidStep _
  | rxStart => exact keep rfl
  | rxEscape => exact fidStep_of_cmd_eq (execRxEscape_cmd s)
  | rxByte b => exact fidStep_of_cmd_eq (execRxByte_cmd b s)

/-- A write to `CMD` or `RXDATA` runs an instruction; no other write reaches `NEXT_FID`, which is read-only (R58). -/
theorem writePlace_fidStep (p : Place) (v : BitVec 64) : EveryNext (FidStep s) (writePlace p v s) := by
  cases p with
  | cmd =>
    show EveryNext (FidStep s) (runCommand (v.setWidth 8) s)
    unfold runCommand
    cases decode .cmd [v.setWidth 8] with
    | ok i => exact exec_fidStep i s
    | error e => exact everyNext_next (.inl rfl)
  | rxData => exact exec_fidStep (decodeRx (v.setWidth 8)) s
  | iLen => exact everyNext_ite (everyNext_next (.inl rfl)) (everyNext_next (.inl rfl))
  | _ => exact everyNext_next (.inl rfl)

theorem runAction_fidStep (act : HostAction) : EveryNext (FidStep s) (runAction act s) := by
  cases act with
  | hardReset => exact everyNext_next (.inr (.inr rfl))
  | write a v =>
    simp only [runAction]
    cases placeAt s.cfg a with
    | none => exact everyNext_next (.inl rfl)
    | some p => exact writePlace_fidStep p v
  | read a =>
    simp only [runAction]
    cases placeAt s.cfg a with
    | none => exact everyNext_next (.inl rfl)
    | some p =>
      cases hread : readPlace p s with
      | ok v =>
        simp only [hread]
        exact everyNext_next (.inl rfl)
      | error f =>
        simp only [hread]
        exact fun _ ht => by cases ht

/-- A step with no transaction pending changes nothing; else it is the transaction's action. -/
theorem step_fidStep (h : step s = .next t) : FidStep s t := by
  unfold step at h
  cases hin : s.input with
  | nil =>
    rw [hin] at h
    cases h
    exact .inl rfl
  | cons act rest =>
    rw [hin] at h
    exact runAction_fidStep (s := { s with input := rest }) act t h

end

/-- Settles O28: the integer laws of the generator, and that a step keeps, advances or resets it. -/
theorem frameIdsAreNeverZero : Obligations.FrameIdsAreNeverZero :=
  ⟨fun _ hf => ⟨toNat_nextFrameId hf, nextFrameId_ne_zero hf⟩, iterate_nextFrameId, rfl,
    fun _ _ hs h => (step_fidStep h).ne_zero hs⟩

end Sys2Proof.Machine
end

section
/-! SUPPORT. The stream parser unit (43_stream_parser R171 to R201): the event a checked frame gives, the step as an
equation in each case of R171, the agreement of both with the printed rules, and what a step can output. -/

namespace Sys2Proof.Machine

/-! ## The event of a checked frame -/

/-- The event that reports a body: the record of its fields (R190 to R195), `P_SHORT_FRAME` (R189), or the body itself
(R196). -/
def bodyEvent : FrameBody → Event
  | .txRequest fid d64 d16 r o d => .txRequest fid d64 d16 r o d
  | .atCommand fid c p => .atCommand fid c p
  | .rxPacket s64 s16 o d => .rxPacket s64 s16 o d none
  | .explicitRx s64 s16 se de cl pr o d =>
    .rxPacket s64 s16 o d (some { srcEp := se, dstEp := de, cluster := cl, profile := pr })
  | .txStatus fid d16 r ds dd => .txStatus fid d16 r ds dd
  | .atResponse fid c st d => .atResponse fid c st d
  | .tooShort => .error 0x13
  | .unknown t f => .unknownFrame t f

/-- A body of a known type is reported by its fields, or is too short for them. -/
theorem bodyEvent_parseBody_of_minBodyLen {f : List Byte} {n : Nat} (ht : minBodyLen (byteAt f 0) = some n) :
    bodyEvent (parseBody f) = if f.length < n then .error 0x13 else bodyEvent (bodyFields f) := by
  rw [parseBody, ht]
  exact apply_ite bodyEvent _ _ _

/-- The printed dispatch (R186) selects the event of the decoded body, type by type. -/
theorem frameEvent_eq_bodyEvent (f : List Byte) : frameEvent f = bodyEvent (parseBody f) := by
  have known {n : Nat} (ht : minBodyLen (byteAt f 0) = some n)
      (he : frameEvent f = if f.length < n then .error 0x13 else bodyEvent (bodyFields f)) :
      frameEvent f = bodyEvent (parseBody f) := he.trans (bodyEvent_parseBody_of_minBodyLen ht).symm
  by_cases h10 : byteAt f 0 = 0x10
  · exact known (n := 14) (by rw [h10]; rfl) (by simp only [frameEvent, bodyFields, h10]; rfl)
  by_cases h90 : byteAt f 0 = 0x90
  · exact known (n := 12) (by rw [h90]; rfl) (by simp only [frameEvent, bodyFields, h90]; rfl)
  by_cases h91 : byteAt f 0 = 0x91
  · exact known (n := 18) (by rw [h91]; rfl) (by simp only [frameEvent, bodyFields, h91]; rfl)
  by_cases h8B : byteAt f 0 = 0x8B
  · exact known (n := 7) (by rw [h8B]; rfl) (by simp only [frameEvent, bodyFields, h8B]; rfl)
  by_cases h08 : byteAt f 0 = 0x08
  · exact known (n := 4) (by rw [h08]; rfl) (by simp only [frameEvent, bodyFields, h08]; rfl)
  by_cases h88 : byteAt f 0 = 0x88
  · exact known (n := 5) (by rw [h88]; rfl) (by simp only [frameEvent, bodyFields, h88]; rfl)
  have hunknown : minBodyLen (byteAt f 0) = none := by
    simp only [minBodyLen, Config.ftTxRequest, Config.ftRxPacket, Config.ftExplicitRx, Config.ftTxStatus,
      Config.ftAtCommand, Config.ftAtResponse, h10, h90, h91, h8B, h08, h88, if_false]
  simp only [frameEvent, parseBody, hunknown, h10, h90, h91, h8B, h08, h88, if_false, bodyEvent]

/-- The dispatch of a body from an idle parser (R186): its event, which counts when it is an error report. -/
theorem dispatchFrame_eq (f : List Byte) {s : State} (hp : s.par.pstate = .waitingForStart) :
    dispatchFrame f s = .next { s with
      par := { s.par with cntFrameErr :=
        if (frameEvent f).isError = true then (s.par.cntFrameErr + 1) % 2 ^ s.cfg.cntW else s.par.cntFrameErr }
      outputs := s.outputs ++ [.event (frameEvent f)] } := by
  rw [frameEvent_eq_bodyEvent, dispatchFrame]
  cases parseBody f with
  | tooShort =>
    show Host.Outcome.next (parserError .shortFrame s) = _
    rw [parserError, ← hp]
    rfl
  | _ => rfl

/-- A dispatch never reports a length error. -/
theorem frameEvent_ne_lengthError (f : List Byte) : frameEvent f ≠ .error 0x11 := by
  rw [frameEvent_eq_bodyEvent]
  cases parseBody f with
  | tooShort => decide
  | _ => exact Event.noConfusion

/-- Settles O35: the body's event is the printed one, and an error report is the one that counts. -/
theorem dispatchFollowsTheRules : Obligations.DispatchFollowsTheRules :=
  fun _ f _ hp => dispatchFrame_eq f hp

/-- Settles O40: the run of the wire form ends in the dispatch of the body, from an idle parser. -/
theorem resyncOnEveryFrame : Obligations.ResyncOnEveryFrame := by
  intro s body rest hlo hhi hin
  obtain ⟨hquiet, q, hidle, hesc, hrun⟩ := runSteps_wire hlo hhi hin
  exact ⟨hquiet, _, hrun.trans (dispatchFrame_eq body hidle), rfl, hidle, hesc, rfl, rfl, rfl⟩

/-! ## The step before a byte is consumed (R171, parts 1 to 3) -/

section
variable {s : State} {b : Byte}

/-- R174: every byte but the delimiter is discarded while idle. -/
theorem parserStep_idle (hb : b ≠ 0x7E) (hp : s.par.pstate = .waitingForStart) : exec (decodeRx b) s = .next s := by
  obtain ⟨hstart, -⟩ | ⟨-, hd⟩ | ⟨-, -, hd⟩ := decodeRx_cases b
  · exact absurd hstart hb
  · rw [hd]
    exact if_pos hp
  · rw [hd]
    exact if_pos hp

/-- R175 (a): 0x7D sets a clear latch. -/
theorem parserStep_setEsc (hp : s.par.pstate ≠ .waitingForStart) (he : s.par.esc = false) :
    exec (decodeRx 0x7D) s = .next (setEsc true s) :=
  (if_neg hp).trans (if_pos he)

/-- R175 (d) with `ESC_REPEAT = latch`: a second 0x7D changes nothing. -/
theorem parserStep_latch (hp : s.par.pstate ≠ .waitingForStart) (he : s.par.esc = true)
    (hr : s.cfg.escRepeat = .latch) : exec (decodeRx 0x7D) s = .next s := by
  refine (if_neg hp).trans ?_
  rw [he, hr]
  rfl

/-- R175 (b), (c), and (d) with `ESC_REPEAT = data`: the de-escaped byte is consumed with the latch cleared. -/
theorem parserStep_consume (hp : s.par.pstate ≠ .waitingForStart) (hb : b ≠ 0x7E)
    (hd : b = 0x7D → s.par.esc = true ∧ s.cfg.escRepeat = .data) :
    exec (decodeRx b) s = consume (deEscape s.par.esc b) (setEsc false s) := by
  obtain ⟨hstart, -⟩ | ⟨rfl, hx⟩ | ⟨-, -, hx⟩ := decodeRx_cases b
  · exact absurd hstart hb
  · obtain ⟨he, hr⟩ := hd rfl
    rw [hx, exec_rxEscape, execRxEscape, if_neg hp, he, hr]
    rfl
  · rw [hx]
    exact execRxByte_of_ne b hp

/-- Clearing a clear latch changes nothing. -/
theorem setEsc_false_eq_self (he : s.par.esc = false) : setEsc false s = s := by
  rw [setEsc, ← he]

/-- RX.BYTE within a frame, with the de-escaped byte as the rules write it. -/
theorem exec_rxByte_eq_consume {d : Byte} (hp : s.par.pstate ≠ .waitingForStart)
    (hd : d = if s.par.esc = true then b ^^^ 0x20 else b) : exec (.rxByte b) s = consume d (setEsc false s) := by
  rw [hd]
  exact execRxByte_of_ne b hp

end

/-- Settles O30: the delimiter's meaning has one case, and an idle parser discards every other byte. -/
theorem delimiterOpensAndIdleDiscards : Obligations.DelimiterOpensAndIdleDiscards :=
  ⟨fun _ => rfl, fun _ _ => parserStep_idle⟩

/-- Settles O31, case by case of R175. -/
theorem escapeLatchFourCases : Obligations.EscapeLatchFourCases := by
  intro s b hp hb
  refine ⟨?_, ?_, ?_, ?_, ?_⟩
  · rintro he rfl
    exact parserStep_setEsc hp he
  · intro he hne
    rw [parserStep_consume hp hb (fun h => absurd h hne), he]
    rfl
  · intro he hne
    rw [parserStep_consume hp hb (fun h => absurd h hne), he, setEsc_false_eq_self he]
    rfl
  · rintro he rfl hr
    rw [parserStep_consume hp hb (fun _ => ⟨he, hr⟩), he]
    rfl
  · rintro he rfl hr
    exact parserStep_latch hp he hr

/-! ## Consuming a byte in each state (R171, part 4) -/

section
variable {s : State}

/-- R176: the first length byte, times 256. -/
theorem consume_lengthMsb (d : Byte) (hp : s.par.pstate = .lengthMsb) :
    consume d s = .next { s with par := { s.par with
      flen := BitVec.ofNat 16 (d.toNat * 256), pstate := .lengthLsb } } := by
  have hflen : d.setWidth 16 <<< 8 = BitVec.ofNat 16 (d.toNat * 256) := by
    apply BitVec.eq_of_toNat_eq
    simp [BitVec.toNat_shiftLeft, Nat.shiftLeft_eq]
  rw [consume, hp]
  simp only [consumeLengthMsb, hflen]

/-- R177: a length in range begins the body. -/
theorem consume_lengthLsb_ok {d : Byte} (hp : s.par.pstate = .lengthLsb)
    (hlen : 1 ≤ (s.par.flen + d.setWidth 16).toNat ∧ (s.par.flen + d.setWidth 16).toNat ≤ 256) :
    consume d s = .next { s with par := { s.par with
      flen := s.par.flen + d.setWidth 16, idx := 0, pstate := .frameData } } := by
  rw [consume, hp]
  exact if_pos ((lengthOk_iff _).2 hlen)

/-- R178 and R179: any other length is `P_LENGTH`. -/
theorem consume_lengthLsb_error {d : Byte} (hp : s.par.pstate = .lengthLsb)
    (hlen : ¬(1 ≤ (s.par.flen + d.setWidth 16).toNat ∧ (s.par.flen + d.setWidth 16).toNat ≤ 256)) :
    consume d s = .next (parserError .length { s with par := { s.par with flen := s.par.flen + d.setWidth 16 } }) := by
  rw [consume, hp]
  exact if_neg fun hok => hlen ((lengthOk_iff _).1 hok)

/-- R180 and R181: a body byte within `FBUF`. -/
theorem consume_frameData (d : Byte) (hp : s.par.pstate = .frameData) (hidx : s.par.idx.toNat < 256) :
    consume d s = .next { s with par := { s.par with
      fbuf := Memory.write s.par.idx.toNat d s.par.fbuf
      sum := s.par.sum + d
      idx := s.par.idx + 1
      pstate := if s.par.idx.toNat + 1 = s.par.flen.toNat then .checksum else .frameData } } := by
  have hnext : (s.par.idx + 1).toNat = s.par.idx.toNat + 1 := by bv_omega
  rw [consume, hp, ← hnext]
  exact if_pos hidx

/-- R184: a total other than 0xFF is `P_CHECKSUM`. -/
theorem consume_checksum_error {d : Byte} (hp : s.par.pstate = .checksum) (htotal : s.par.sum + d ≠ 0xFF) :
    consume d s = .next (parserError .checksum
      { s with par := { s.par with sum := s.par.sum + d, pstate := .waitingForStart } }) := by
  rw [consume, hp]
  exact if_neg fun hok => htotal (eq_of_beq hok)

end

/-- Settles O32: the length as a number is the assembled 16-bit value. -/
theorem lengthBytesAreAssembledAndChecked : Obligations.LengthBytesAreAssembledAndChecked := by
  intro s b d _ _ hd
  refine ⟨fun hp => ?_, fun n hp hn => ?_⟩
  · rw [exec_rxByte_eq_consume (by simp [hp]) hd]
    exact consume_lengthMsb d hp
  · have hlen : (s.par.flen + d.setWidth 16).toNat = n := by
      rw [hn, BitVec.toNat_add, BitVec.toNat_setWidth_of_le (by decide)]
    have hflen : BitVec.ofNat 16 n = s.par.flen + d.setWidth 16 := by
      rw [← hlen, BitVec.ofNat_toNat, BitVec.setWidth_eq]
    rw [exec_rxByte_eq_consume (by simp [hp]) hd, hflen]
    refine ⟨fun hok => ?_, fun hbad => ?_⟩
    · exact consume_lengthLsb_ok (s := setEsc false s) hp (hlen ▸ hok)
    · exact consume_lengthLsb_error (s := setEsc false s) hp (fun hok => by
        have hok' : 1 ≤ n ∧ n ≤ 256 := hlen ▸ hok
        omega)

/-- Settles O33: the next state is that of R180, with read after write on `FBUF`. -/
theorem bodyBytesAreStoredAndSummed : Obligations.BodyBytesAreStoredAndSummed := by
  intro s b d _ _ hd hp hlt hflen
  refine ⟨_, (exec_rxByte_eq_consume (by simp [hp]) hd).trans
    (consume_frameData d (s := setEsc false s) hp (hlt.trans_le hflen)), ?_, ?_, rfl⟩
  · exact fun i => Memory.read_write s.par.fbuf _ i d
  · show (s.par.idx + 1).toNat = s.par.idx.toNat + 1
    bv_omega

/-- R183: the one byte that closes a body to a total of 0xFF is its checksum. -/
theorem sum8_add_eq_iff (f : List Byte) (d : Byte) : sum8 f + d = 0xFF ↔ d = cksum f := by
  rw [← sum8_add_cksum f, BitVec.add_right_inj]

/-- Settles O34: the total is 0xFF exactly for the body's checksum, which dispatches the body. -/
theorem checksumDecidesTheFrame : Obligations.ChecksumDecidesTheFrame := by
  intro s b d f _ _ hd hp hf hflen hsum
  rw [exec_rxByte_eq_consume (by simp [hp]) hd]
  refine ⟨?_, fun hne => ?_⟩
  · rintro rfl
    exact consume_cksum (s := setEsc false s) ⟨hp, rfl, hflen, hf, hsum⟩
  · refine consume_checksum_error (s := setEsc false s) hp fun htotal => hne ?_
    rw [setEsc_par_sum, hsum] at htotal
    exact (sum8_add_eq_iff f d).1 htotal

/-! ## The step as R171 prints it -/

/-- The state after a parser step that moves the parser and may give an event, which counts if it is an error report. -/
def applyStep (s : State) : ParserUnit × Option Event → State
  | (p, none) => { s with par := p }
  | (p, some e) =>
    { s with
      par := { p with cntFrameErr := if e.isError then countUp s.cfg.cntW p.cntFrameErr else p.cntFrameErr }
      outputs := s.outputs ++ [.event e] }

theorem specParser_eq_applyStep (s : State) (b : Byte) :
    specParser s b = applyStep s (specStep s.cfg.escRepeat s.par b) := rfl

/-- The new parser does not depend on the old latch but through the step. -/
theorem applyStep_setEsc (v : Bool) (s : State) (r : ParserUnit × Option Event) :
    applyStep (setEsc v s) r = applyStep s r := by
  obtain ⟨p, _ | e⟩ := r <;> rfl

/-- The body received is what `FBUF` holds up to `flen`. -/
theorem frameBytes_of_receivedIs {p : ParserUnit} {f : List Byte} (hf : ReceivedIs p f) :
    frameBytes p.fbuf f.length = f := by
  obtain ⟨-, hread⟩ := hf
  refine List.ext_getElem (by simp [frameBytes]) fun i _ hi => ?_
  simp [frameBytes, hread i hi, hi]

/-- Part 4 of R171, state by state: the invariant gives the room in `FBUF` and the body that is dispatched. -/
theorem consume_eq_applyStep (d : Byte) {s : State} (he : s.par.esc = false) (hi : parserInv s.par = true) :
    consume d s = .next (applyStep s (specConsume s.par d)) := by
  cases hp : s.par.pstate with
  | waitingForStart => simp only [consume, specConsume, hp, applyStep]
  | lengthMsb =>
    rw [consume_lengthMsb d hp]
    simp only [specConsume, hp, applyStep]
  | lengthLsb =>
    have hrange : (s.par.flen + d.setWidth 16 = 0 ∨ 256 < (s.par.flen + d.setWidth 16).toNat) ↔
        ¬(1 ≤ (s.par.flen + d.setWidth 16).toNat ∧ (s.par.flen + d.setWidth 16).toNat ≤ 256) := by
      bv_omega
    simp only [specConsume, hp, BitVec.ofNat_toNat, hrange]
    by_cases hlen : 1 ≤ (s.par.flen + d.setWidth 16).toNat ∧ (s.par.flen + d.setWidth 16).toNat ≤ 256
    · rw [consume_lengthLsb_ok hp hlen, if_neg (not_not_intro hlen)]
      rfl
    · rw [consume_lengthLsb_error hp hlen, if_pos hlen]
      rfl
  | frameData =>
    obtain ⟨⟨-, hflen⟩, hlt, -⟩ := (parserInv_frameData hp).1 hi
    have hnext : (s.par.idx + 1).toNat = s.par.idx.toNat + 1 := by bv_omega
    rw [consume_frameData d hp (by omega)]
    simp only [specConsume, hp, hnext]
    by_cases hlast : s.par.idx.toNat + 1 = s.par.flen.toNat
    · simp only [if_pos hlast, applyStep]
    · simp only [if_neg hlast, applyStep, ← hp]
  | checksum =>
    obtain ⟨-, hidx, f, hf, hsum⟩ := (parserInv_checksum hp).1 hi
    have hflen : s.par.flen.toNat = f.length := hidx.symm.trans hf.1.symm
    simp only [specConsume, hp]
    by_cases htotal : s.par.sum + d = 0xFF
    · obtain rfl := (sum8_add_eq_iff f d).1 (hsum ▸ htotal)
      rw [consume_cksum ⟨hp, he, hflen, hf, hsum⟩, dispatchFrame_eq f rfl, hflen, frameBytes_of_receivedIs hf,
        if_neg (not_not_intro htotal), htotal]
      rfl
    · rw [consume_checksum_error hp htotal, if_pos htotal]
      rfl

/-- Settles O37, along the tests of R171 in their order. -/
theorem parserStepIsTheRule : Obligations.ParserStepIsTheRule := by
  intro s b hi
  have hconsume (d : Byte) (hp : s.par.pstate ≠ .waitingForStart) :
      consume d (setEsc false s) = .next (applyStep s (specConsume (setEsc false s).par d)) := by
    rw [consume_eq_applyStep d (setEsc_par_esc false s) (parserInv_setEsc false hp hi), applyStep_setEsc]
  rw [specParser_eq_applyStep, specStep]
  split_ifs with hstart hidle hset hlatch hesc
  · rw [hstart]
    rfl
  · exact parserStep_idle hstart hidle
  · obtain ⟨he, rfl⟩ := hset
    exact parserStep_setEsc hidle he
  · obtain ⟨he, rfl, hr⟩ := hlatch
    exact parserStep_latch hidle he hr
  · have hdata (hb : b = 0x7D) : s.par.esc = true ∧ s.cfg.escRepeat = .data := by
      refine ⟨hesc, ?_⟩
      cases hr : s.cfg.escRepeat with
      | data => rfl
      | latch => exact absurd ⟨hesc, hb, hr⟩ hlatch
    rw [parserStep_consume hidle hstart hdata, hesc]
    exact hconsume _ hidle
  · have he : s.par.esc = false := Bool.eq_false_of_not_eq_true hesc
    rw [parserStep_consume hidle hstart (fun hb => absurd ⟨he, hb⟩ hset), he, hconsume _ hidle,
      setEsc_false_eq_self he]
    rfl

/-! ## What a step can output (R201) -/

/-- The events of each state: `P_LENGTH` at the second length byte, everything else at the checksum byte. -/
def MayEmit (st : PState) (e : Event) : Prop :=
  st = .lengthLsb ∧ e = .error 0x11 ∨ st = .checksum ∧ e ≠ .error 0x11

section
variable {s t : State}

/-- Consuming a byte moves the parser only, or gives one event of the state and leaves the parser idle. -/
theorem consume_next {d : Byte} (h : consume d s = .next t) :
    (∃ p, t = { s with par := p }) ∨
    ∃ e p, t = { s with par := p, outputs := s.outputs ++ [.event e] } ∧ MayEmit s.par.pstate e ∧
      p.pstate = .waitingForStart := by
  unfold consume at h
  cases hp : s.par.pstate <;> rw [hp] at h
  case waitingForStart =>
    cases h
    exact .inl ⟨_, rfl⟩
  case lengthMsb =>
    cases h
    exact .inl ⟨_, rfl⟩
  case lengthLsb =>
    obtain ⟨-, hx⟩ | ⟨-, hx⟩ := consumeLengthLsb_cases d s <;> rw [hx] at h <;> cases h
    · exact .inl ⟨_, rfl⟩
    · exact .inr ⟨.error 0x11, _, rfl, .inl ⟨rfl, rfl⟩, rfl⟩
  case frameData =>
    obtain ⟨-, rfl⟩ := consumeFrameData_next h
    exact .inl ⟨_, rfl⟩
  case checksum =>
    obtain ⟨-, rfl⟩ | ⟨-, f, -, hdis⟩ := consumeChecksum_next h
    · exact .inr ⟨.error 0x12, _, rfl, .inr ⟨rfl, by decide⟩, rfl⟩
    · rw [dispatchFrame_eq f rfl] at hdis
      cases hdis
      exact .inr ⟨frameEvent f, _, rfl, .inr ⟨rfl, frameEvent_ne_lengthError f⟩, rfl⟩

/-- A parser step moves the parser only, or gives one event as it consumes a byte that is neither the delimiter nor a
0x7D that sets the latch. -/
theorem parserStep_event {b : Byte} (h : exec (decodeRx b) s = .next t) :
    (∃ p, t = { s with par := p }) ∨
    ∃ e p, t = { s with par := p, outputs := s.outputs ++ [.event e] } ∧ b ≠ 0x7E ∧ ¬(b = 0x7D ∧ s.par.esc = false) ∧
      MayEmit s.par.pstate e ∧ p.pstate = .waitingForStart := by
  obtain ⟨-, rfl⟩ | ⟨-, rfl, -⟩ | ⟨-, -, -, rfl⟩ | ⟨-, hb, hset, hc⟩ := parserStep_next h
  · exact .inl ⟨_, rfl⟩
  · exact .inl ⟨_, rfl⟩
  · exact .inl ⟨_, rfl⟩
  · obtain hquiet | ⟨e, p, ht, hmay, hidle⟩ := consume_next hc
    · exact .inl hquiet
    · exact .inr ⟨e, p, ht, hb, hset, hmay, hidle⟩

/-- An idle parser is silent until the next delimiter. -/
theorem silent_idle {bs : List Byte} {p : ParserUnit} (hbs : 0x7E ∉ bs) (hp : p.pstate = .waitingForStart) :
    Silent bs p p := by
  induction bs with
  | nil => exact silent_nil p
  | cons b bs ih =>
    refine Silent.append (v := [b]) (silent_singleton ?_) (ih (List.not_mem_of_not_mem_cons hbs))
    rintro s rfl
    exact parserStep_idle (List.ne_of_not_mem_cons hbs).symm hp

/-- The first step of a run that answers a next state. -/
theorem runSteps_succ_next {n : Nat} (h : runSteps (n + 1) s = .next t) :
    ∃ u, step s = .next u ∧ runSteps n u = .next t := by
  unfold runSteps at h
  cases hstep : step s with
  | next u => exact ⟨u, rfl, by rw [hstep] at h; exact h⟩
  | fault f => rw [hstep] at h; cases h
  | refused r => rw [hstep] at h; cases h

/-- Between two delimiters there is at most one event: after it the parser is idle. -/
theorem runSteps_event {bs : List Byte} {rest : List HostAction} (hbs : 0x7E ∉ bs)
    (hin : s.input = bs.map rxWrite ++ rest) (h : runSteps bs.length s = .next t) :
    ∃ evs, t.outputs = s.outputs ++ evs ∧ evs.length ≤ 1 := by
  induction bs generalizing s with
  | nil =>
    cases h
    exact ⟨[], (List.append_nil _).symm, Nat.zero_le 1⟩
  | cons b bs ih =>
    have hbs' := List.not_mem_of_not_mem_cons hbs
    obtain ⟨u, hstep, hrun⟩ := runSteps_succ_next h
    rw [step_rxWrite hin] at hstep
    obtain ⟨p, rfl⟩ | ⟨e, p, rfl, -, -, -, hidle⟩ := parserStep_event hstep
    · exact ih (s := { s with par := p, input := bs.map rxWrite ++ rest }) hbs' rfl hrun
    · obtain ⟨-, hsilent⟩ := silent_idle hbs' hidle { s with
        par := p, input := bs.map rxWrite ++ rest, outputs := s.outputs ++ [.event e] } rest rfl rfl
      cases hsilent.symm.trans hrun
      exact ⟨[.event e], rfl, Nat.le_refl 1⟩

end

/-- Settles O39: the single step by what it can output, and the run by the idle parser after its event. -/
theorem atMostOneEventPerFrame : Obligations.AtMostOneEventPerFrame := by
  refine ⟨fun s t b h => ?_, fun s t bs rest => runSteps_event⟩
  obtain ⟨p, rfl⟩ | ⟨e, p, rfl, hrest⟩ := parserStep_event h
  · exact .inl rfl
  · exact .inr ⟨e, rfl, hrest⟩

end Sys2Proof.Machine
end

section
/-! SUPPORT. The two agents of the block (10_state section 1, 70_reset_and_hazards R257): replacing what one of them
owns does not change what the other does, and each changes only what it owns. -/

namespace Sys2Proof.Machine

/-! ## Outcomes that agree up to the other agent's state -/

/-- `r'` is `r` with its next state taken through `g`, and the same fault. -/
def Carries (g : State → State) (r r' : Result) : Prop :=
  (∀ t, r = .next t → r' = .next (g t)) ∧ ∀ f, r = .fault f → r' = .fault f

/-- The state `s` with the parser unit `p`, after a command that took `s` to `t`. -/
def commandIn (s : State) (p : ParserUnit) (t : State) : State := { s with par := p, cmd := t.cmd }

/-- The state `s` with the command unit `c`, after a parser step that took `s` to `t`. -/
def parserIn (s : State) (c : CommandUnit) (t : State) : State :=
  { s with cmd := c, par := t.par, outputs := t.outputs }

section
variable {g : State → State} {s s' : State}

theorem carries_next {t t' : State} (h : t' = g t) : Carries g (.next t) (.next t') := by
  constructor
  · rintro _ ⟨⟩
    rw [h]
  · rintro _ ⟨⟩

theorem carries_fault (f : Fault) : Carries g (.fault f) (.fault f) := by
  constructor
  · rintro _ ⟨⟩
  · rintro _ ⟨⟩
    rfl

theorem carries_ite {c : Prop} [Decidable c] {a a' b b' : Result} (ha : Carries g a a') (hb : Carries g b b') :
    Carries g (if c then a else b) (if c then a' else b') := by
  split
  · exact ha
  · exact hb

/-- A read of the input sees the parameters and the command unit alone. -/
theorem carries_withBytes {a n : Nat} {k k' : List Byte → Result} (hcfg : s'.cfg = s.cfg) (hcmd : s'.cmd = s.cmd)
    (h : ∀ b, Carries g (k b) (k' b)) : Carries g (withBytes a n s k) (withBytes a n s' k') := by
  unfold withBytes
  rw [hcfg, hcmd]
  refine carries_ite ?_ (carries_fault _)
  cases readBytes .ibuf s.cmd.ibuf a n with
  | ok b => exact h b
  | error f => exact carries_fault f

theorem carries_withInput {k k' : List Byte → Result} (hcfg : s'.cfg = s.cfg) (hcmd : s'.cmd = s.cmd)
    (h : ∀ inp, Carries g (k inp) (k' inp)) : Carries g (withInput s k) (withInput s' k') := by
  unfold withInput inputLen
  rw [hcmd]
  exact carries_withBytes hcfg hcmd h

theorem carries_storeOutput {o : List Byte} {k k' : State → Result} (hcfg : s'.cfg = s.cfg)
    (h : Carries g (k (setOutput o s)) (k' (setOutput o s'))) :
    Carries g (storeOutput o s k) (storeOutput o s' k') := by
  unfold storeOutput
  rw [hcfg]
  exact carries_ite h (carries_fault _)

theorem carries_validate {tag : Byte} {len : Nat} {m : List Byte} {k k' : Result}
    (hdrop : raiseCrcDrop s' = g (raiseCrcDrop s)) (hfail : ∀ e, raise e s' = g (raise e s)) (h : Carries g k k') :
    Carries g (validate tag len m s k) (validate tag len m s' k') :=
  carries_ite (carries_next hdrop) (carries_ite (carries_next (hfail _))
    (carries_ite (carries_next (hfail _)) (carries_ite (carries_next (hfail _)) h)))

end

/-! ## A command and the parser unit -/

section
variable (s : State) (p : ParserUnit)

theorem storeMessage_carries (m : List Byte) :
    Carries (commandIn s p) (storeMessage m s) (storeMessage m { s with par := p }) :=
  carries_storeOutput rfl (carries_next rfl)

/-- Taking the frame id is work within the command unit. -/
theorem takeFrameId_commandIn : takeFrameId { s with par := p } = commandIn s p (takeFrameId s) := by
  rw [takeFrameId_eq, takeFrameId_eq]
  rfl

/-- `s'` is `s`, or `s` after the frame id was taken. -/
theorem sendFrame_carries (body : List Byte) {s' t' : State} (h : t' = commandIn s p s') :
    Carries (commandIn s p) (sendFrame body s s') (sendFrame body { s with par := p } t') := by
  rw [h]
  exact carries_ite (carries_next rfl) (carries_next rfl)

theorem receiveData_carries (m : List Byte) :
    Carries (commandIn s p) (receiveData m s) (receiveData m { s with par := p }) :=
  carries_validate rfl (fun _ => rfl) (carries_storeOutput rfl (carries_next rfl))

theorem receiveNack_carries (m : List Byte) :
    Carries (commandIn s p) (receiveNack m s) (receiveNack m { s with par := p }) :=
  carries_validate rfl (fun _ => rfl) (carries_next rfl)

theorem receiveDone_carries (m : List Byte) :
    Carries (commandIn s p) (receiveDone m s) (receiveDone m { s with par := p }) :=
  carries_validate rfl (fun _ => rfl) (carries_next rfl)

/-- A parse command fails for its length, or receives the input. -/
theorem receiveInput_carries (n : Nat) {receive : List Byte → State → Result}
    (h : ∀ m, Carries (commandIn s p) (receive m s) (receive m { s with par := p })) :
    Carries (commandIn s p) (receiveInput n receive s) (receiveInput n receive { s with par := p }) :=
  carries_ite (carries_next rfl) (carries_withInput rfl rfl h)

/-- A command other than SYS.RESET reads the parameters and the command unit and writes the command unit, so another
parser in its place is no difference to it. -/
theorem exec_carries_par {i : Instr} (hfmt : i.format = .cmd) (hreset : i ≠ .sysReset) :
    Carries (commandIn s p) (exec i s) (exec i { s with par := p }) := by
  cases i with
  | crcCompute => exact carries_withInput rfl rfl fun _ => carries_next rfl
  | crcVerify =>
    exact carries_ite (carries_next rfl) (carries_withInput rfl rfl fun _ =>
      carries_ite (carries_next rfl) (carries_next rfl))
  | crcAppend => exact carries_ite (carries_next rfl) (carries_withInput rfl rfl fun _ => carries_next rfl)
  | fragEncHdr =>
    exact carries_storeOutput (k := fun t => .next (succeed t)) (k' := fun t => .next (succeed t)) rfl
      (carries_next rfl)
  | fragEncData => exact carries_ite (carries_next rfl) (carries_withInput rfl rfl fun _ => storeMessage_carries s p _)
  | fragBuildNack => exact storeMessage_carries s p _
  | fragBuildDone => exact storeMessage_carries s p _
  | fragDecHdr => exact carries_ite (carries_next rfl) (carries_withBytes rfl rfl fun _ => carries_next rfl)
  | fragParseData => exact receiveInput_carries s p 15 (receiveData_carries s p)
  | fragParseNack => exact receiveInput_carries s p 7 (receiveNack_carries s p)
  | fragParseDone => exact receiveInput_carries s p 6 (receiveDone_carries s p)
  | fragParse =>
    exact carries_ite (carries_next rfl) (carries_withBytes rfl rfl fun _ =>
      carries_ite (receiveInput_carries s p 15 (receiveData_carries s p))
        (carries_ite (receiveInput_carries s p 7 (receiveNack_carries s p))
          (carries_ite (receiveInput_carries s p 6 (receiveDone_carries s p)) (carries_next rfl))))
  | apiBuildTx => exact carries_withInput rfl rfl fun _ => sendFrame_carries s p _ rfl
  | apiBuildTxAuto => exact carries_withInput rfl rfl fun _ => sendFrame_carries s p _ (takeFrameId_commandIn s p)
  | apiBuildAt => exact carries_withInput rfl rfl fun _ => sendFrame_carries s p _ rfl
  | apiBuildAtAuto => exact carries_withInput rfl rfl fun _ => sendFrame_carries s p _ (takeFrameId_commandIn s p)
  | sysReset => exact absurd rfl hreset
  | frameTxRequest | frameAtCommand | frameRxPacket | frameExplicitRx | frameTxStatus | frameAtResponse | msgData
  | msgNack | msgDone | rxStart | rxEscape | rxByte => cases hfmt

end

/-- A command changes the command unit only: the case of `exec_carries_par` in which the parser stays. -/
theorem exec_command_frame {i : Instr} {s t : State} (hfmt : i.format = .cmd) (hreset : i ≠ .sysReset)
    (h : exec i s = .next t) : t = { s with cmd := t.cmd } :=
  Host.Outcome.next.inj (h.symm.trans ((exec_carries_par s s.par hfmt hreset).1 t h))

/-! ## A parser step and the command unit -/

section
variable (s : State) (c : CommandUnit)

theorem dispatchFrame_carries (f : List Byte) :
    Carries (parserIn s c) (dispatchFrame f s) (dispatchFrame f { s with cmd := c }) := by
  unfold dispatchFrame
  cases parseBody f <;> exact carries_next rfl

/-- Consuming a byte, in each state of the parser. -/
theorem consume_carries (d : Byte) : Carries (parserIn s c) (consume d s) (consume d { s with cmd := c }) := by
  unfold consume
  cases s.par.pstate with
  | waitingForStart => exact carries_next rfl
  | lengthMsb => exact carries_next rfl
  | lengthLsb => exact carries_ite (carries_next rfl) (carries_next rfl)
  | frameData => exact carries_ite (carries_next rfl) (carries_fault _)
  | checksum =>
    refine carries_ite ?_ (carries_next rfl)
    cases readBytes .fbuf s.par.fbuf 0 s.par.flen.toNat with
    | ok f => exact dispatchFrame_carries _ c f
    | error e => exact carries_fault e

/-- A parser step reads the parameters and the parser, and writes the parser and the outputs, so another command unit
in its place is no difference to it. -/
theorem parserStep_carries_cmd (b : Byte) :
    Carries (parserIn s c) (exec (decodeRx b) s) (exec (decodeRx b) { s with cmd := c }) := by
  obtain ⟨-, hd⟩ | ⟨-, hd⟩ | ⟨-, -, hd⟩ := decodeRx_cases b <;> rw [hd]
  case inl => exact carries_next rfl
  case inr.inl =>
    refine carries_ite (carries_next rfl) (carries_ite (carries_next rfl) ?_)
    cases s.cfg.escRepeat with
    | latch => exact carries_next rfl
    | data => exact consume_carries (setEsc false s) c _
  case inr.inr => exact carries_ite (carries_next rfl) (consume_carries (setEsc false s) c _)

end

/-- A parser step changes the parser and the outputs only: the case of `parserStep_carries_cmd` in which the command
unit stays. -/
theorem parserStep_frame {b : Byte} {s t : State} (h : exec (decodeRx b) s = .next t) :
    t = { s with par := t.par, outputs := t.outputs } :=
  Host.Outcome.next.inj (h.symm.trans ((parserStep_carries_cmd s s.cmd b).1 t h))

/-- Settles O50: what each agent changes by the two frame lemmas, what it depends on by the two `carries` lemmas. -/
theorem agentsDoNotDisturbEachOther : Obligations.AgentsDoNotDisturbEachOther := by
  refine ⟨fun i s t hfmt hreset h => ?_, fun b s t h => ?_, fun i s p hfmt hreset => ?_, fun b s c => ?_⟩
  · rw [exec_command_frame hfmt hreset h]
    exact ⟨rfl, rfl, rfl, rfl⟩
  · rw [parserStep_frame h]
    exact ⟨rfl, rfl, rfl⟩
  · obtain ⟨hnext, hfault⟩ := exec_carries_par s p hfmt hreset
    refine ⟨fun t h => ?_, hfault⟩
    rw [hnext t h, exec_command_frame hfmt hreset h]
    rfl
  · obtain ⟨hnext, hfault⟩ := parserStep_carries_cmd s c b
    refine ⟨fun t h => ?_, hfault⟩
    rw [hnext t h, parserStep_frame h]
    rfl

end Sys2Proof.Machine
end

section
/-! SUPPORT. The fragment messages on the wire (30_encoding R83 to R86): the fields a serialized message reads back as,
and what its validating parser does with it, as a command and as a row of FRAGMSG (41_fragment_codec section 4). -/

namespace Sys2Proof.Machine

/-! ## The fields of a serialized message -/

/-- The CRC field that ends a message. -/
theorem get16_append_be16 (s : List Byte) (v : Half) : get16 (s ++ be16 v) ((s ++ be16 v).length - 2) = v := by
  have hlen : (s ++ be16 v).length - 2 = s.length := by simp
  rw [hlen]
  simpa using get16_be16 s [] v

/-- A list of 16-bit fields reads back, wherever it stands. -/
theorem getHalves_flatMap_be16 (s t : List Byte) (vs : List Half) :
    getHalves (s ++ vs.flatMap be16 ++ t) s.length vs.length = vs := by
  induction vs generalizing s with
  | nil => rfl
  | cons v vs ih =>
    have hv := get16_be16 s (vs.flatMap be16 ++ t) v
    have hvs := ih (s ++ be16 v)
    rw [List.length_append, length_be16] at hvs
    rw [List.flatMap_cons, List.length_cons, getHalves]
    simp only [List.append_assoc] at hv hvs ⊢
    rw [hv, hvs]

/-- The header fields of a serialized DATA fragment, whatever CRC field follows it. -/
theorem fields_dataHead (m : Half) (tl : BitVec 32) (ix cnt : Half) (p t : List Byte) :
    get16 (dataHead m tl ix cnt p ++ t) 2 = m ∧ get32 (dataHead m tl ix cnt p ++ t) 4 = tl ∧
    get16 (dataHead m tl ix cnt p ++ t) 8 = ix ∧ get16 (dataHead m tl ix cnt p ++ t) 10 = cnt := by
  refine ⟨be16_join m, ?_, be16_join ix, be16_join cnt⟩
  simpa [dataHead, hdr] using get32_be32 ([Config.protoVersion, Config.typeData] ++ be16 m)
    (be16 ix ++ be16 cnt ++ [BitVec.ofNat 8 p.length] ++ p ++ t) tl

/-- The header registers of a serialized DATA fragment, whatever CRC field follows it. -/
theorem deliverHeader_dataHead (m : Half) (tl : BitVec 32) (ix cnt : Half) (p t : List Byte) (s : State) :
    deliverHeader (dataHead m tl ix cnt p ++ t) s = { s with cmd := { s.cmd with
      ver := 0x01, type := 0x01, msgId := m, totLen := tl, fragIdx := ix, fragCnt := cnt,
      payLen := BitVec.ofNat 8 p.length } } := by
  obtain ⟨hm, htl, hix, hcnt⟩ := fields_dataHead m tl ix cnt p t
  rw [deliverHeader, hm, htl, hix, hcnt]
  rfl

/-- A DATA message is 15 bytes longer than its payload. -/
theorem length_dataHead_append_be16 (m : Half) (tl : BitVec 32) (ix cnt : Half) (p : List Byte) (c : Half) :
    (dataHead m tl ix cnt p ++ be16 c).length = 15 + p.length := by
  rw [List.length_append, length_dataHead, length_be16]
  omega

/-- A NACK message takes 7 bytes and two for each index. -/
theorem length_nackHead_append_be16 (m : Half) (is : List Half) (c : Half) :
    (nackHead m is ++ be16 c).length = 7 + 2 * is.length := by
  rw [List.length_append, length_nackHead, length_be16]
  omega

/-- The payload-length byte of a DATA fragment, as a number. -/
theorem toNat_payLen_dataHead (m : Half) (tl : BitVec 32) (ix cnt : Half) {p : List Byte} (t : List Byte)
    (hp : p.length ≤ 255) : (byteAt (dataHead m tl ix cnt p ++ t) 12).toNat = p.length := by
  show (BitVec.ofNat 8 p.length).toNat = p.length
  rw [BitVec.toNat_ofNat]
  omega

/-- The payload of a DATA fragment. -/
theorem slice_dataHead (m : Half) (tl : BitVec 32) (ix cnt : Half) (p t : List Byte) :
    slice (dataHead m tl ix cnt p ++ t) 13 p.length = p :=
  List.take_left

/-- The count byte of a NACK, as a number. -/
theorem toNat_count_nackHead (m : Half) {is : List Half} (t : List Byte) (his : is.length ≤ 255) :
    (byteAt (nackHead m is ++ t) 4).toNat = is.length := by
  show (BitVec.ofNat 8 is.length).toNat = is.length
  rw [BitVec.toNat_ofNat]
  omega

/-- The index list of a NACK. -/
theorem getHalves_nackHead (m : Half) (is : List Half) (t : List Byte) :
    getHalves (nackHead m is ++ t) 5 is.length = is :=
  getHalves_flatMap_be16 ([Config.protoVersion, Config.typeNack] ++ be16 m ++ [BitVec.ofNat 8 is.length]) t is

/-- The registers of a serialized NACK, whatever CRC field follows it. -/
theorem deliverNack_nackHead (m : Half) {is : List Half} (t : List Byte) (s : State) (his : is.length ≤ 255) :
    deliverNack (nackHead m is ++ t) s = { s with cmd := { s.cmd with
      ver := 0x01, type := 0x02, msgId := m, nCnt := BitVec.ofNat 8 is.length,
      idxFile := IndexFile.writeAll 0 is s.cmd.idxFile } } := by
  have hm : get16 (nackHead m is ++ t) 2 = m := be16_join m
  rw [deliverNack, hm, toNat_count_nackHead m t his, getHalves_nackHead]
  rfl

/-- The registers of a serialized DONE, whatever CRC field follows it. -/
theorem deliverDone_doneHead (m : Half) (t : List Byte) (s : State) :
    deliverDone (doneHead m ++ t) s = { s with cmd := { s.cmd with ver := 0x01, type := 0x03, msgId := m } } := by
  have hm : get16 (doneHead m ++ t) 2 = m := be16_join m
  rw [deliverDone, hm]
  rfl

/-- A list written to `IDX` from entry 0 on; the entries after it keep their values. -/
theorem IndexFile.read_writeAll_zero (vs : List Half) (f : IndexFile) (k : Nat) :
    IndexFile.read (IndexFile.writeAll 0 vs f) k = (vs[k]?).getD (IndexFile.read f k) := by
  rw [IndexFile.read_writeAll]
  by_cases hk : k < vs.length
  · rw [if_pos (by omega), Nat.sub_zero, List.getD_eq_getElem?_getD, List.getElem?_eq_getElem hk]
    rfl
  · rw [if_neg (by omega), List.getElem?_eq_none (Nat.not_lt.1 hk)]
    rfl

/-! ## Messages as instructions -/

/-- The right CRC field makes a message verify. -/
theorem crcVerify_append_of_eq {head : List Byte} {c : Half} (hc : c = crc16 head) :
    crcVerify (head ++ be16 c) = true :=
  (crcVerify_append_be16_iff head c).2 hc

/-- Any other CRC field makes it fail. -/
theorem crcVerify_append_of_ne {head : List Byte} {c : Half} (hc : c ≠ crc16 head) :
    crcVerify (head ++ be16 c) = false :=
  Bool.eq_false_iff.2 fun h => hc ((crcVerify_append_be16_iff head c).1 h)

/-- A DATA message with the right CRC field is delivered, its payload in the output. -/
theorem exec_msgData_good {s : State} (m : Half) (tl : BitVec 32) (ix cnt : Half) {p : List Byte} {c : Half}
    (hcfg : s.cfg.ok = true) (hp : p.length ≤ 255) (hc : c = crc16 (dataHead m tl ix cnt p)) :
    ∃ t, exec (.msgData m tl ix cnt p c) s = .next t ∧ OutputIs t p ∧
      t = { s with cmd := { s.cmd with
        ver := 0x01, type := 0x01, msgId := m, totLen := tl, fragIdx := ix, fragCnt := cnt,
        payLen := BitVec.ofNat 8 p.length, crc := c, oLen := t.cmd.oLen, obuf := t.cmd.obuf, ok := true,
        err := 0x00 } } := by
  have hpay := toNat_payLen_dataHead m tl ix cnt (be16 c) hp
  have hpass := receiveData_pass hcfg (crcVerify_append_of_eq hc) rfl rfl
    (by rw [length_dataHead_append_be16, hpay])
  rw [hpay, slice_dataHead, get16_append_be16, deliverHeader_dataHead] at hpass
  exact ⟨_, hpass, outputIs_setOutput p s (by omega), rfl⟩

/-- A NACK message with the right CRC field is delivered, its indices in `IDX`. -/
theorem exec_msgNack_good {s : State} (m : Half) {is : List Half} {c : Half} (his : is.length ≤ 255)
    (hc : c = crc16 (nackHead m is)) :
    ∃ t, exec (.msgNack m is c) s = .next t ∧
      (∀ k, IndexFile.read t.cmd.idxFile k = (is[k]?).getD (IndexFile.read s.cmd.idxFile k)) ∧
      t = { s with cmd := { s.cmd with
        ver := 0x01, type := 0x02, msgId := m, nCnt := BitVec.ofNat 8 is.length, idxFile := t.cmd.idxFile, crc := c,
        ok := true, err := 0x00 } } := by
  have hpass : exec (.msgNack m is c) s = _ :=
    validate_pass (crcVerify_append_of_eq hc) rfl rfl
      (by rw [length_nackHead_append_be16, toNat_count_nackHead m (be16 c) his])
  rw [get16_append_be16, deliverNack_nackHead m (be16 c) s his] at hpass
  exact ⟨_, hpass, IndexFile.read_writeAll_zero is s.cmd.idxFile, rfl⟩

/-- A DONE message with the right CRC field is delivered. -/
theorem exec_msgDone_good (s : State) (m : Half) {c : Half} (hc : c = crc16 (doneHead m)) :
    exec (.msgDone m c) s = .next { s with cmd := { s.cmd with
      ver := 0x01, type := 0x03, msgId := m, crc := c, ok := true, err := 0x00 } } := by
  have hpass : exec (.msgDone m c) s = _ := validate_pass (crcVerify_append_of_eq hc) rfl rfl rfl
  have hfield : get16 (doneHead m ++ be16 c) 4 = c := get16_append_be16 (doneHead m) c
  rw [hfield, deliverDone_doneHead] at hpass
  exact hpass

/-- Settles O20, kind by kind. -/
theorem goodMessagesAreDelivered : Obligations.GoodMessagesAreDelivered :=
  ⟨fun _ m tl ix cnt _ _ => exec_msgData_good m tl ix cnt, fun _ m _ _ => exec_msgNack_good m,
    fun s m _ => exec_msgDone_good s m⟩

/-- Settles O21: the CRC test comes first, before any field is looked at. -/
theorem badMessagesAreDropped : Obligations.BadMessagesAreDropped :=
  ⟨fun _ _ _ _ _ _ _ hc => validate_crc (crcVerify_append_of_ne hc),
    fun _ _ _ _ hc => validate_crc (crcVerify_append_of_ne hc),
    fun _ _ _ hc => validate_crc (crcVerify_append_of_ne hc)⟩

/-! ## Messages in the input -/

section
variable {s : State}

theorem length_dataMsg (m : Half) (tl : BitVec 32) (ix cnt : Half) (p : List Byte) :
    (dataMsg m tl ix cnt p).length = 15 + p.length :=
  length_dataHead_append_be16 ..

theorem length_nackMsg (m : Half) (is : List Half) : (nackMsg m is).length = 7 + 2 * is.length :=
  length_nackHead_append_be16 ..

/-- FRAG.PARSE_DATA on a serialized DATA fragment runs the message, and FRAG.PARSE does the same by its tag. -/
theorem exec_parse_dataMsg {m : Half} {tl : BitVec 32} {ix cnt : Half} {p : List Byte}
    (h : InputIs s (dataMsg m tl ix cnt p)) :
    exec .fragParseData s = exec (.msgData m tl ix cnt p (crc16 (dataHead m tl ix cnt p))) s ∧
    exec .fragParse s = exec .fragParseData s := by
  have hlen : 15 ≤ (dataMsg m tl ix cnt p).length := by rw [length_dataMsg]; omega
  obtain ⟨hdata, -⟩ := parseDispatchesOnTheTag.2.2 s _ h (by omega)
  exact ⟨exec_fragParseData h hlen, hdata rfl⟩

/-- FRAG.PARSE_NACK on a serialized NACK runs the message, and FRAG.PARSE does the same by its tag. -/
theorem exec_parse_nackMsg {m : Half} {is : List Half} (h : InputIs s (nackMsg m is)) :
    exec .fragParseNack s = exec (.msgNack m is (crc16 (nackHead m is))) s ∧
    exec .fragParse s = exec .fragParseNack s := by
  have hlen : 7 ≤ (nackMsg m is).length := by rw [length_nackMsg]; omega
  obtain ⟨-, hnack, -⟩ := parseDispatchesOnTheTag.2.2 s _ h (by omega)
  exact ⟨exec_fragParseNack h hlen, hnack rfl⟩

/-- FRAG.PARSE_DONE on a serialized DONE runs the message, and FRAG.PARSE does the same by its tag. -/
theorem exec_parse_doneMsg {m : Half} (h : InputIs s (doneMsg m)) :
    exec .fragParseDone s = exec (.msgDone m (crc16 (doneHead m))) s ∧
    exec .fragParse s = exec .fragParseDone s := by
  obtain ⟨-, -, hdone, -⟩ := parseDispatchesOnTheTag.2.2 s _ h (by decide : 2 ≤ 6)
  exact ⟨exec_fragParseDone h (Nat.le_refl 6), hdone rfl⟩

end

/-- Settles O17: the parser runs the message of the fields that were serialized, whose CRC field is right. -/
theorem dataFragmentRoundTrip : Obligations.DataFragmentRoundTrip := by
  intro s m tl ix cnt p hcfg hp h
  obtain ⟨hown, hboth⟩ := exec_parse_dataMsg h
  obtain ⟨t, ht, hrest⟩ := exec_msgData_good m tl ix cnt hcfg hp rfl
  exact ⟨t, hown.trans ht, (hboth.trans hown).trans ht, hrest⟩

/-- Settles O18, as O17 for the other two kinds. -/
theorem nackAndDoneRoundTrip : Obligations.NackAndDoneRoundTrip := by
  refine ⟨fun s m is his h => ?_, fun s m h => ?_⟩
  · obtain ⟨hown, hboth⟩ := exec_parse_nackMsg h
    obtain ⟨t, ht, hrest⟩ := exec_msgNack_good m his rfl
    exact ⟨t, hown.trans ht, (hboth.trans hown).trans ht, hrest⟩
  · obtain ⟨hown, hboth⟩ := exec_parse_doneMsg h
    have ht := exec_msgDone_good s m rfl
    exact ⟨_, hown.trans ht, (hboth.trans hown).trans ht, rfl⟩

@[simp] theorem length_flipBit (m : List Byte) (i j : Nat) : (flipBit m i j).length = m.length := List.length_set

/-- A serialized message with one bit flipped no longer verifies. -/
theorem crcVerify_flipBit_crcAppend {head : List Byte} {i j : Nat} (hj : j < 8) (hi : i < (crcAppend head).length) :
    crcVerify (flipBit (crcAppend head) i j) = false :=
  crcVerify_flipBit (crcVerify_crcAppend head) hi hj

/-- Settles O19: the flipped message is still long enough, and the CRC test refuses it. -/
theorem flippedMessageIsDropped : Obligations.FlippedMessageIsDropped := by
  intro s i j hj
  refine ⟨fun m tl ix cnt p _ hi h => ?_, fun m is _ hi h => ?_, fun m hi h => ?_⟩
  · rw [exec_fragParseData h (by rw [length_flipBit, length_dataMsg]; omega)]
    exact validate_crc (crcVerify_flipBit_crcAppend hj hi)
  · rw [exec_fragParseNack h (by rw [length_flipBit, length_nackMsg]; omega)]
    exact validate_crc (crcVerify_flipBit_crcAppend hj hi)
  · rw [exec_fragParseDone h (by rw [length_flipBit]; exact Nat.le_refl 6)]
    exact validate_crc (crcVerify_flipBit_crcAppend hj hi)

end Sys2Proof.Machine
end

section
/-! SUPPORT. Decode and encode (30_encoding R72 to R97) in both directions: the codes of the commands, the bodies of
the frames and the layouts of the messages, whose fields are read from a string and put together to it again. -/

namespace Sys2Proof.Machine

/-! ## A string from its fields -/

section
variable {s : List Byte} {o : Nat}

/-- A byte and what follows it. -/
theorem byteAt_cons_drop (h : o < s.length) : byteAt s o :: s.drop (o + 1) = s.drop o := by
  rw [List.drop_eq_getElem_cons h, byteAt, List.getD_eq_getElem _ _ h]

/-- The bytes of a 32-bit field are what was joined. -/
theorem be32_append (a b : Half) : be32 (a ++ b : BitVec 32) = be16 a ++ be16 b := by
  have ha : (a ++ b : BitVec 32).extractLsb' 16 16 = a := BitVec.extractLsb'_append_eq_left
  have hb : (a ++ b : BitVec 32).extractLsb' 0 16 = b := BitVec.extractLsb'_append_eq_right
  rw [be32, ha, hb]

/-- The bytes of a 64-bit field are what was joined. -/
theorem be64_append (a b : BitVec 32) : be64 (a ++ b : BitVec 64) = be32 a ++ be32 b := by
  have ha : (a ++ b : BitVec 64).extractLsb' 32 32 = a := BitVec.extractLsb'_append_eq_left
  have hb : (a ++ b : BitVec 64).extractLsb' 0 32 = b := BitVec.extractLsb'_append_eq_right
  rw [be64, ha, hb]

/-- A 16-bit field and what follows it. -/
theorem be16_append_drop (h : o + 2 ≤ s.length) : be16 (get16 s o) ++ s.drop (o + 2) = s.drop o := by
  rw [get16, be16_append, ← byteAt_cons_drop (o := o) (by omega), ← byteAt_cons_drop (o := o + 1) (by omega)]
  rfl

/-- A 32-bit field and what follows it. -/
theorem be32_append_drop (h : o + 4 ≤ s.length) : be32 (get32 s o) ++ s.drop (o + 4) = s.drop o := by
  rw [get32, be32_append, ← be16_append_drop (o := o) (by omega), ← be16_append_drop (o := o + 2) (by omega),
    List.append_assoc]

/-- A 64-bit field and what follows it. -/
theorem be64_append_drop (h : o + 8 ≤ s.length) : be64 (get64 s o) ++ s.drop (o + 8) = s.drop o := by
  rw [get64, be64_append, ← be32_append_drop (o := o) (by omega), ← be32_append_drop (o := o + 4) (by omega),
    List.append_assoc]

/-- The last 16-bit field. -/
theorem be16_last (h : o + 2 = s.length) : be16 (get16 s o) = s.drop o := by
  rw [← be16_append_drop (o := o) (by omega), List.drop_eq_nil_of_le (by omega), List.append_nil]

/-- A slice and what follows it. -/
theorem slice_append_drop (s : List Byte) (o n : Nat) : slice s o n ++ s.drop (o + n) = s.drop o := by
  rw [slice, ← List.drop_drop, List.take_append_drop]

/-- A list of 16-bit fields and what follows it. -/
theorem flatMap_getHalves_append_drop {n : Nat} (h : o + 2 * n ≤ s.length) :
    (getHalves s o n).flatMap be16 ++ s.drop (o + 2 * n) = s.drop o := by
  induction n generalizing o with
  | zero => rfl
  | succ n ih =>
    have hnext : o + 2 * (n + 1) = o + 2 + 2 * n := by omega
    rw [getHalves, List.flatMap_cons, List.append_assoc, hnext, ih (by omega), be16_append_drop (by omega)]

end

/-! ## Commands -/

/-- One row of a table of codes: this row's instruction, or what the rows after it say. -/
theorem code_or_of_ite_ok {c k : Byte} {i j : Instr} {r : Except DecodeError Instr}
    (h : (if c = k then .ok j else r) = .ok i) : (c = k ∧ i = j) ∨ r = .ok i := by
  split at h
  · rename_i hc
    cases h
    exact .inl ⟨hc, rfl⟩
  · exact .inr h

/-- A byte decodes to the command whose code it is. -/
theorem decodeCmd_ok_iff {c : Byte} {i : Instr} : decodeCmd c = .ok i ↔ i.format = .cmd ∧ encode i = [c] := by
  constructor
  · intro h
    unfold decodeCmd at h
    iterate 17
      obtain ⟨rfl, rfl⟩ | h := code_or_of_ite_ok h
      · exact ⟨rfl, rfl⟩
    cases h
  · rintro ⟨hfmt, hc⟩
    cases i <;> cases hfmt <;> cases hc <;> rfl

/-! ## Frames -/

/-- The instruction of a body, if it is one of the six records. -/
def instrOfBody : FrameBody → Option Instr
  | .txRequest fid d64 d16 r o d => some (.frameTxRequest fid d64 d16 r o d)
  | .atCommand fid c p => some (.frameAtCommand fid c p)
  | .rxPacket s64 s16 o d => some (.frameRxPacket s64 s16 o d)
  | .explicitRx s64 s16 se de cl pr o d => some (.frameExplicitRx s64 s16 se de cl pr o d)
  | .txStatus fid d16 r ds dd => some (.frameTxStatus fid d16 r ds dd)
  | .atResponse fid c st d => some (.frameAtResponse fid c st d)
  | .tooShort => none
  | .unknown _ _ => none

/-- A string decodes to a frame exactly when it is a body of that record. -/
theorem decodeFrame_ok_iff {f : List Byte} {i : Instr} :
    decodeFrame f = .ok i ↔ f ≠ [] ∧ instrOfBody (parseBody f) = some i := by
  unfold decodeFrame
  cases f with
  | nil => simp
  | cons b f => cases parseBody (b :: f) <;> simp [instrOfBody]

/-- What the body of a record is: of a known type, with all its fixed fields. -/
theorem parseBody_of_instrOfBody {f : List Byte} {i : Instr} (h : instrOfBody (parseBody f) = some i) :
    ∃ n, minBodyLen (byteAt f 0) = some n ∧ n ≤ f.length ∧ parseBody f = bodyFields f := by
  cases ht : minBodyLen (byteAt f 0) with
  | none =>
    have hunknown : parseBody f = .unknown (byteAt f 0) f := by rw [parseBody, ht]
    rw [hunknown] at h
    cases h
  | some n =>
    by_cases hlen : f.length < n
    · have hshort : parseBody f = .tooShort := by
        rw [parseBody, ht]
        exact if_pos hlen
      rw [hshort] at h
      cases h
    · exact ⟨n, rfl, Nat.not_lt.1 hlen, parseBody_of_le ht (Nat.not_lt.1 hlen)⟩

/-- The six types and the sizes of their fixed fields. -/
theorem minBodyLen_cases {t : Byte} {n : Nat} (h : minBodyLen t = some n) :
    (t = 0x10 ∧ n = 14) ∨ (t = 0x90 ∧ n = 12) ∨ (t = 0x91 ∧ n = 18) ∨ (t = 0x8B ∧ n = 7) ∨ (t = 0x08 ∧ n = 4) ∨
    (t = 0x88 ∧ n = 5) := by
  unfold minBodyLen at h
  split_ifs at h with h10 h90 h91 h8B h08 h88 <;> cases h
  · exact .inl ⟨h10, rfl⟩
  · exact .inr (.inl ⟨h90, rfl⟩)
  · exact .inr (.inr (.inl ⟨h91, rfl⟩))
  · exact .inr (.inr (.inr (.inl ⟨h8B, rfl⟩)))
  · exact .inr (.inr (.inr (.inr (.inl ⟨h08, rfl⟩))))
  · exact .inr (.inr (.inr (.inr (.inr ⟨h88, rfl⟩))))

@[simp] theorem length_rxPacketBody (a64 : BitVec 64) (a16 : Half) (o : Byte) (d : List Byte) :
    (rxPacketBody a64 a16 o d).length = 12 + d.length := by
  rw [rxPacketBody, List.length_append]
  rfl

@[simp] theorem length_explicitRxBody (a64 : BitVec 64) (a16 : Half) (se de : Byte) (cl pr : Half) (o : Byte)
    (d : List Byte) : (explicitRxBody a64 a16 se de cl pr o d).length = 18 + d.length := by
  rw [explicitRxBody, List.length_append]
  rfl

@[simp] theorem length_txStatusBody (fid : Byte) (a16 : Half) (r ds dd : Byte) :
    (txStatusBody fid a16 r ds dd).length = 7 := rfl

@[simp] theorem length_atResponseBody (fid : Byte) (c : Half) (st : Byte) (d : List Byte) :
    (atResponseBody fid c st d).length = 5 + d.length := by
  rw [atResponseBody, List.length_append]
  rfl

/-- The Receive Packet body decodes to its fields. -/
theorem parseBody_rxPacketBody (a64 : BitVec 64) (a16 : Half) (o : Byte) (d : List Byte) :
    parseBody (rxPacketBody a64 a16 o d) = .rxPacket a64 a16 o d := by
  have h64 : get64 (rxPacketBody a64 a16 o d) 1 = a64 := by
    simpa [rxPacketBody] using get64_be64 [Config.ftRxPacket] (be16 a16 ++ [o] ++ d) a64
  have h16 : get16 (rxPacketBody a64 a16 o d) 9 = a16 := be16_join a16
  have hfields : bodyFields (rxPacketBody a64 a16 o d) =
      .rxPacket (get64 (rxPacketBody a64 a16 o d) 1) (get16 (rxPacketBody a64 a16 o d) 9) o d := rfl
  rw [parseBody_of_le (n := 12) rfl (by rw [length_rxPacketBody]; omega), hfields, h64, h16]

/-- The Explicit Rx body decodes to its fields. -/
theorem parseBody_explicitRxBody (a64 : BitVec 64) (a16 : Half) (se de : Byte) (cl pr : Half) (o : Byte)
    (d : List Byte) :
    parseBody (explicitRxBody a64 a16 se de cl pr o d) = .explicitRx a64 a16 se de cl pr o d := by
  have h64 : get64 (explicitRxBody a64 a16 se de cl pr o d) 1 = a64 := by
    simpa [explicitRxBody] using
      get64_be64 [Config.ftExplicitRx] (be16 a16 ++ [se, de] ++ be16 cl ++ be16 pr ++ [o] ++ d) a64
  have h16 : get16 (explicitRxBody a64 a16 se de cl pr o d) 9 = a16 := be16_join a16
  have hcl : get16 (explicitRxBody a64 a16 se de cl pr o d) 13 = cl := be16_join cl
  have hpr : get16 (explicitRxBody a64 a16 se de cl pr o d) 15 = pr := be16_join pr
  have hfields : bodyFields (explicitRxBody a64 a16 se de cl pr o d) =
      .explicitRx (get64 (explicitRxBody a64 a16 se de cl pr o d) 1)
        (get16 (explicitRxBody a64 a16 se de cl pr o d) 9) se de (get16 (explicitRxBody a64 a16 se de cl pr o d) 13)
        (get16 (explicitRxBody a64 a16 se de cl pr o d) 15) o d := rfl
  rw [parseBody_of_le (n := 18) rfl (by rw [length_explicitRxBody]; omega), hfields, h64, h16, hcl, hpr]

/-- The Transmit Status body decodes to its fields. -/
theorem parseBody_txStatusBody (fid : Byte) (a16 : Half) (r ds dd : Byte) :
    parseBody (txStatusBody fid a16 r ds dd) = .txStatus fid a16 r ds dd := by
  have h16 : get16 (txStatusBody fid a16 r ds dd) 2 = a16 := be16_join a16
  have hfields : bodyFields (txStatusBody fid a16 r ds dd) =
      .txStatus fid (get16 (txStatusBody fid a16 r ds dd) 2) r ds dd := rfl
  rw [parseBody_of_le (n := 7) rfl (by rw [length_txStatusBody]), hfields, h16]

/-- The AT Response body decodes to its fields. -/
theorem parseBody_atResponseBody (fid : Byte) (c : Half) (st : Byte) (d : List Byte) :
    parseBody (atResponseBody fid c st d) = .atResponse fid c st d := by
  have h16 : get16 (atResponseBody fid c st d) 2 = c := be16_join c
  have hfields : bodyFields (atResponseBody fid c st d) =
      .atResponse fid (get16 (atResponseBody fid c st d) 2) st d := rfl
  rw [parseBody_of_le (n := 5) rfl (by rw [length_atResponseBody]; omega), hfields, h16]

section
variable {f : List Byte}

/-- A Transmit Request body is put together from its fields. -/
theorem txBody_of_fields (ht : byteAt f 0 = 0x10) (hlen : 14 ≤ f.length) :
    txBody (byteAt f 1) (get64 f 2) (get16 f 10) (byteAt f 12) (byteAt f 13) (f.drop 14) = f := by
  have htype : Config.ftTxRequest = byteAt f 0 := ht.symm
  simp (disch := omega) only [txBody, htype, List.append_assoc, List.cons_append, List.nil_append,
    byteAt_cons_drop, be16_append_drop, be64_append_drop, List.drop_zero]

/-- A Receive Packet body is put together from its fields. -/
theorem rxPacketBody_of_fields (ht : byteAt f 0 = 0x90) (hlen : 12 ≤ f.length) :
    rxPacketBody (get64 f 1) (get16 f 9) (byteAt f 11) (f.drop 12) = f := by
  have htype : Config.ftRxPacket = byteAt f 0 := ht.symm
  simp (disch := omega) only [rxPacketBody, htype, List.append_assoc, List.cons_append,
    List.nil_append, byteAt_cons_drop, be16_append_drop, be64_append_drop, List.drop_zero]

/-- An Explicit Rx body is put together from its fields. -/
theorem explicitRxBody_of_fields (ht : byteAt f 0 = 0x91) (hlen : 18 ≤ f.length) :
    explicitRxBody (get64 f 1) (get16 f 9) (byteAt f 11) (byteAt f 12) (get16 f 13) (get16 f 15) (byteAt f 17)
      (f.drop 18) = f := by
  have htype : Config.ftExplicitRx = byteAt f 0 := ht.symm
  simp (disch := omega) only [explicitRxBody, htype, List.append_assoc, List.cons_append,
    List.nil_append, byteAt_cons_drop, be16_append_drop, be64_append_drop, List.drop_zero]

/-- The first seven bytes of a Transmit Status body are put together from its fields (R187). -/
theorem txStatusBody_of_fields (ht : byteAt f 0 = 0x8B) (hlen : 7 ≤ f.length) :
    txStatusBody (byteAt f 1) (get16 f 2) (byteAt f 4) (byteAt f 5) (byteAt f 6) = f.take 7 := by
  have htype : Config.ftTxStatus = byteAt f 0 := ht.symm
  have hwhole : txStatusBody (byteAt f 1) (get16 f 2) (byteAt f 4) (byteAt f 5) (byteAt f 6) ++ f.drop 7 = f := by
    simp (disch := omega) only [txStatusBody, htype, List.append_assoc, List.cons_append,
      List.nil_append, byteAt_cons_drop, be16_append_drop, List.drop_zero]
  exact List.append_cancel_right (hwhole.trans (List.take_append_drop 7 f).symm)

/-- An AT Command body is put together from its fields. -/
theorem atBody_of_fields (ht : byteAt f 0 = 0x08) (hlen : 4 ≤ f.length) :
    atBody (byteAt f 1) (get16 f 2) (f.drop 4) = f := by
  have htype : Config.ftAtCommand = byteAt f 0 := ht.symm
  simp (disch := omega) only [atBody, htype, List.cons_append, List.nil_append,
    byteAt_cons_drop, be16_append_drop, List.drop_zero]

/-- An AT Response body is put together from its fields. -/
theorem atResponseBody_of_fields (ht : byteAt f 0 = 0x88) (hlen : 5 ≤ f.length) :
    atResponseBody (byteAt f 1) (get16 f 2) (byteAt f 4) (f.drop 5) = f := by
  have htype : Config.ftAtResponse = byteAt f 0 := ht.symm
  simp (disch := omega) only [atResponseBody, htype, List.append_assoc, List.cons_append,
    List.nil_append, byteAt_cons_drop, be16_append_drop, List.drop_zero]

/-- The body of a record is its encoding, but for what follows the seventh byte of a Transmit Status. -/
theorem encode_of_instrOfBody {i : Instr} (h : instrOfBody (parseBody f) = some i) :
    i.format = .apiFrame ∧ encode i = if byteAt f 0 = 0x8B then f.take 7 else f := by
  obtain ⟨n, hmin, hlen, hfields⟩ := parseBody_of_instrOfBody h
  rw [hfields, bodyFields] at h
  obtain ⟨ht, rfl⟩ | ⟨ht, rfl⟩ | ⟨ht, rfl⟩ | ⟨ht, rfl⟩ | ⟨ht, rfl⟩ | ⟨ht, rfl⟩ := minBodyLen_cases hmin <;>
    rw [ht] at h ⊢ <;> cases h
  · exact ⟨rfl, txBody_of_fields ht hlen⟩
  · exact ⟨rfl, rxPacketBody_of_fields ht hlen⟩
  · exact ⟨rfl, explicitRxBody_of_fields ht hlen⟩
  · exact ⟨rfl, txStatusBody_of_fields ht hlen⟩
  · exact ⟨rfl, atBody_of_fields ht hlen⟩
  · exact ⟨rfl, atResponseBody_of_fields ht hlen⟩

end

/-! ## Messages -/

section
variable {m : List Byte}

/-- A DATA message of the length its payload-length byte implies is put together from its fields. -/
theorem dataHead_of_fields (hver : byteAt m 0 = 0x01) (htag : byteAt m 1 = 0x01)
    (hlen : m.length = 15 + (byteAt m 12).toNat) :
    dataHead (get16 m 2) (get32 m 4) (get16 m 8) (get16 m 10) (slice m 13 (byteAt m 12).toNat) ++
      be16 (get16 m (m.length - 2)) = m := by
  have hpay : (slice m 13 (byteAt m 12).toNat).length = (byteAt m 12).toNat := by
    rw [slice, List.length_take, List.length_drop]
    omega
  have hend : m.length - 2 = 13 + (byteAt m 12).toNat := by omega
  have hversion : Config.protoVersion = byteAt m 0 := hver.symm
  have htype : Config.typeData = byteAt m 1 := htag.symm
  have hcount : BitVec.ofNat 8 (byteAt m 12).toNat = byteAt m 12 := by simp
  rw [be16_last (by omega), dataHead, hpay, hcount, hend]
  simp (disch := omega) only [hdr, hversion, htype, List.append_assoc, List.cons_append, List.nil_append,
    slice_append_drop, byteAt_cons_drop, be16_append_drop, be32_append_drop, List.drop_zero]

/-- A NACK message of the length its count byte implies is put together from its fields. -/
theorem nackHead_of_fields (hver : byteAt m 0 = 0x01) (htag : byteAt m 1 = 0x02)
    (hlen : m.length = 7 + 2 * (byteAt m 4).toNat) :
    nackHead (get16 m 2) (getHalves m 5 (byteAt m 4).toNat) ++ be16 (get16 m (m.length - 2)) = m := by
  have hend : m.length - 2 = 5 + 2 * (byteAt m 4).toNat := by omega
  have hversion : Config.protoVersion = byteAt m 0 := hver.symm
  have htype : Config.typeNack = byteAt m 1 := htag.symm
  have hcount : BitVec.ofNat 8 (byteAt m 4).toNat = byteAt m 4 := by simp
  rw [be16_last (by omega), nackHead, length_getHalves, hcount, hend]
  simp (disch := omega) only [hversion, htype, List.append_assoc,
    List.cons_append, List.nil_append, flatMap_getHalves_append_drop, byteAt_cons_drop, be16_append_drop,
    List.drop_zero]

/-- A DONE message of six bytes is put together from its fields. -/
theorem doneHead_of_fields (hver : byteAt m 0 = 0x01) (htag : byteAt m 1 = 0x03) (hlen : m.length = 6) :
    doneHead (get16 m 2) ++ be16 (get16 m 4) = m := by
  have hversion : Config.protoVersion = byteAt m 0 := hver.symm
  have htype : Config.typeDone = byteAt m 1 := htag.symm
  rw [be16_last (by omega), doneHead]
  simp (disch := omega) only [hversion, htype, List.cons_append, List.nil_append, byteAt_cons_drop, be16_append_drop,
    List.drop_zero]

/-- The messages that are rows of FRAGMSG: the version, one of the three tags, and the length the fields imply. -/
theorem decodeMsg_ok_iff {i : Instr} :
    decodeMsg m = .ok i ↔ byteAt m 0 = 0x01 ∧
      ((byteAt m 1 = 0x01 ∧ m.length = 15 + (byteAt m 12).toNat ∧
        i = .msgData (get16 m 2) (get32 m 4) (get16 m 8) (get16 m 10) (slice m 13 (byteAt m 12).toNat)
          (get16 m (m.length - 2))) ∨
      (byteAt m 1 = 0x02 ∧ m.length = 7 + 2 * (byteAt m 4).toNat ∧
        i = .msgNack (get16 m 2) (getHalves m 5 (byteAt m 4).toNat) (get16 m (m.length - 2))) ∨
      (byteAt m 1 = 0x03 ∧ m.length = 6 ∧ i = .msgDone (get16 m 2) (get16 m 4))) := by
  unfold decodeMsg Config.protoVersion Config.typeData Config.typeNack Config.typeDone
  constructor
  · intro h
    split_ifs at h with hsel hver hdata hshort hlen hnack hshort hlen hdone hshort hlen <;> cases h
    · exact ⟨not_not.1 hver, .inl ⟨hdata, not_not.1 hlen, rfl⟩⟩
    · exact ⟨not_not.1 hver, .inr (.inl ⟨hnack, not_not.1 hlen, rfl⟩)⟩
    · exact ⟨not_not.1 hver, .inr (.inr ⟨hdone, not_not.1 hlen, rfl⟩)⟩
  · rintro ⟨hver, ⟨htag, hlen, rfl⟩ | ⟨htag, hlen, rfl⟩ | ⟨htag, hlen, rfl⟩⟩
    · rw [if_neg (by omega), if_neg (not_not_intro hver), if_pos htag, if_neg (by omega),
        if_neg (not_not_intro hlen)]
    · rw [if_neg (by omega), if_neg (not_not_intro hver), htag, if_neg (by decide), if_pos rfl, if_neg (by omega),
        if_neg (not_not_intro hlen)]
    · rw [if_neg (by omega), if_neg (not_not_intro hver), htag, if_neg (by decide), if_neg (by decide), if_pos rfl,
        if_neg (by omega), if_neg (not_not_intro hlen)]

/-- A row of FRAGMSG is its encoding. -/
theorem encode_of_decodeMsg {i : Instr} (h : decodeMsg m = .ok i) : i.format = .fragMsg ∧ encode i = m := by
  obtain ⟨hver, ⟨htag, hlen, rfl⟩ | ⟨htag, hlen, rfl⟩ | ⟨htag, hlen, rfl⟩⟩ := decodeMsg_ok_iff.1 h
  · exact ⟨rfl, dataHead_of_fields hver htag hlen⟩
  · exact ⟨rfl, nackHead_of_fields hver htag hlen⟩
  · exact ⟨rfl, doneHead_of_fields hver htag hlen⟩

end

/-- A serialized DATA message decodes to its fields. -/
theorem decodeMsg_dataHead (m : Half) (tl : BitVec 32) (ix cnt : Half) {p : List Byte} (c : Half)
    (hp : p.length ≤ 255) : decodeMsg (dataHead m tl ix cnt p ++ be16 c) = .ok (.msgData m tl ix cnt p c) := by
  have hpay := toNat_payLen_dataHead m tl ix cnt (be16 c) hp
  obtain ⟨hm, htl, hix, hcnt⟩ := fields_dataHead m tl ix cnt p (be16 c)
  refine decodeMsg_ok_iff.2 ⟨rfl, .inl ⟨rfl, by rw [length_dataHead_append_be16, hpay], ?_⟩⟩
  rw [hpay, slice_dataHead, get16_append_be16, hm, htl, hix, hcnt]

/-- A serialized NACK message decodes to its fields. -/
theorem decodeMsg_nackHead (m : Half) {is : List Half} (c : Half) (his : is.length ≤ 255) :
    decodeMsg (nackHead m is ++ be16 c) = .ok (.msgNack m is c) := by
  have hcount := toNat_count_nackHead m (be16 c) his
  have hm : get16 (nackHead m is ++ be16 c) 2 = m := be16_join m
  refine decodeMsg_ok_iff.2 ⟨rfl, .inr (.inl ⟨rfl, by rw [length_nackHead_append_be16, hcount], ?_⟩)⟩
  rw [hcount, getHalves_nackHead, get16_append_be16, hm]

/-- A serialized DONE message decodes to its fields. -/
theorem decodeMsg_doneHead (m c : Half) : decodeMsg (doneHead m ++ be16 c) = .ok (.msgDone m c) := by
  have hm : get16 (doneHead m ++ be16 c) 2 = m := be16_join m
  have hc : get16 (doneHead m ++ be16 c) 4 = c := be16_join c
  refine decodeMsg_ok_iff.2 ⟨rfl, .inr (.inr ⟨rfl, rfl, ?_⟩)⟩
  rw [hm, hc]

/-! ## The three statements -/

/-- A frame decodes from a body that is parsed to its record. -/
theorem decode_apiFrame {f : List Byte} {b : FrameBody} {i : Instr} (hf : f ≠ []) (hb : parseBody f = b)
    (hi : instrOfBody b = some i) : decode .apiFrame f = .ok i :=
  decodeFrame_ok_iff.2 ⟨hf, hb ▸ hi⟩

/-- Settles O57, constructor by constructor: the code of a command, the fields of a frame or message, the class of a
raw byte. -/
theorem decodeOfEncodeIsTheInstruction : Obligations.DecodeOfEncodeIsTheInstruction := by
  intro i hwf
  cases i with
  | frameTxRequest => exact decode_apiFrame (List.cons_ne_nil _ _) (parseBody_txBody ..) rfl
  | frameAtCommand => exact decode_apiFrame (List.cons_ne_nil _ _) (parseBody_atBody ..) rfl
  | frameRxPacket => exact decode_apiFrame (List.cons_ne_nil _ _) (parseBody_rxPacketBody ..) rfl
  | frameExplicitRx => exact decode_apiFrame (List.cons_ne_nil _ _) (parseBody_explicitRxBody ..) rfl
  | frameTxStatus => exact decode_apiFrame (List.cons_ne_nil _ _) (parseBody_txStatusBody ..) rfl
  | frameAtResponse => exact decode_apiFrame (List.cons_ne_nil _ _) (parseBody_atResponseBody ..) rfl
  | msgData => exact decodeMsg_dataHead _ _ _ _ _ (of_decide_eq_true hwf)
  | msgNack => exact decodeMsg_nackHead _ _ (of_decide_eq_true hwf)
  | msgDone => exact decodeMsg_doneHead _ _
  | rxByte b =>
    obtain ⟨rfl, -⟩ | ⟨rfl, -⟩ | ⟨-, -, hd⟩ := decodeRx_cases b
    · exact absurd hwf (by decide)
    · exact absurd hwf (by decide)
    · exact congrArg Except.ok hd
  | rxStart | rxEscape => rfl
  | _ => exact decodeCmd_ok_iff.2 ⟨rfl, rfl⟩

/-- Settles O58, format by format: the string is put together again from the fields it was read to. -/
theorem encodeOfDecodeIsTheBytes : Obligations.EncodeOfDecodeIsTheBytes := by
  intro f bytes i h
  cases f with
  | cmd =>
    match bytes, h with
    | [c], h => exact decodeCmd_ok_iff.1 h
  | apiFrame =>
    obtain ⟨-, hi⟩ := decodeFrame_ok_iff.1 h
    simpa using encode_of_instrOfBody hi
  | fragMsg => exact encode_of_decodeMsg h
  | rxByte =>
    match bytes, h with
    | [b], h =>
      obtain rfl := Except.ok.inj h
      obtain ⟨rfl, hd⟩ | ⟨rfl, hd⟩ | ⟨-, -, hd⟩ := decodeRx_cases b <;> rw [hd] <;> exact ⟨rfl, rfl⟩

/-- Settles O59, word by word. -/
theorem wordsOfTheTableDecode : Obligations.WordsOfTheTableDecode :=
  ⟨rfl, rfl, rfl, rfl, rfl, by decide, by decide, by decide, by decide, rfl, rfl, rfl⟩

end Sys2Proof.Machine
end

section
/-! SUPPORT. The host's port (20_memory R58, 44_system R211 to R215): the address map, what a step does for each kind of
transaction, and which instruction it runs. -/

namespace Sys2Proof.Machine

/-! ## The address map -/

/-- One row of a table of addresses: this row's place, or what the rows after it say. -/
theorem row_or_of_ite_some {a k : Nat} {p q : Place} {r : Option Place}
    (h : (if a = k then some q else r) = some p) : (a, p) = (k, q) ∨ r = some p := by
  split at h
  · rename_i ha
    cases h
    exact .inl (by rw [ha])
  · exact .inr h

/-- Every register stands in the printed table at its address. -/
theorem mem_addressTable_of_registerAt {a : Nat} {p : Place} (h : registerAt a = some p) :
    (a, p) ∈ addressTable := by
  unfold registerAt at h
  iterate 25
    obtain hrow | h := row_or_of_ite_some h
    · rw [hrow]
      decide
  cases h

/-- Every row of the printed table is a register below 0x200. -/
theorem registerAt_of_mem_addressTable : ∀ e ∈ addressTable, e.1 < 0x200 ∧ registerAt e.1 = some e.2 := by decide

/-- What is mapped: a row of the table, an entry of `IDX`, or a byte of `IBUF` or `OBUF`. -/
theorem placeAt_cases {cfg : Params} {a : HostAddr} {p : Place} (h : placeAt cfg a = some p) :
    (a.toNat, p) ∈ addressTable ∨ (∃ i, i < 255 ∧ a.toNat = 0x00200 + 2 * i ∧ p = .idx i) ∨
    (∃ i, i < cfg.bufCap ∧ a.toNat = 0x10000 + i ∧ p = .ibuf i) ∨
    ∃ i, i < cfg.bufCap ∧ a.toNat = 0x20000 + i ∧ p = .obuf i := by
  unfold placeAt Config.idxCap at h
  dsimp only at h
  split_ifs at h with hreg hidx heven hibuf hobuf
  · exact .inl (mem_addressTable_of_registerAt h)
  · exact .inr (.inl ⟨(a.toNat - 0x200) / 2, by omega, by omega, (Option.some.inj h).symm⟩)
  · exact .inr (.inr (.inl ⟨a.toNat - 0x10000, by omega, by omega, (Option.some.inj h).symm⟩))
  · exact .inr (.inr (.inr ⟨a.toNat - 0x20000, by omega, by omega, (Option.some.inj h).symm⟩))

/-- An 18-bit address below 2^18 is its number. -/
theorem toNat_hostAddr {n : Nat} (h : n < 2 ^ 18) : (BitVec.ofNat 18 n).toNat = n := by
  rw [BitVec.toNat_ofNat, Nat.mod_eq_of_lt h]

section
variable {cfg : Params} {i : Nat}

/-- A row of the table stands at its address. -/
theorem placeAt_of_mem_addressTable {e : Nat × Place} (he : e ∈ addressTable) :
    placeAt cfg (BitVec.ofNat 18 e.1) = some e.2 := by
  obtain ⟨hlt, hreg⟩ := registerAt_of_mem_addressTable e he
  unfold placeAt
  rw [toNat_hostAddr (by omega), if_pos hlt, hreg]

/-- The entries of `IDX` stand at the even addresses from 0x200 on. -/
theorem placeAt_idx (hi : i < 255) : placeAt cfg (BitVec.ofNat 18 (0x00200 + 2 * i)) = some (.idx i) := by
  have hindex : (0x00200 + 2 * i - 0x200) / 2 = i := by omega
  unfold placeAt Config.idxCap
  rw [toNat_hostAddr (by omega), if_neg (by omega), if_pos (by omega), if_pos (by omega), hindex]

/-- The bytes of `IBUF` stand from 0x10000 on. -/
theorem placeAt_ibuf (hcfg : cfg.ok = true) (hi : i < cfg.bufCap) :
    placeAt cfg (BitVec.ofNat 18 (0x10000 + i)) = some (.ibuf i) := by
  obtain ⟨-, hcap, -⟩ := params_ranges hcfg
  unfold placeAt Config.idxCap
  rw [toNat_hostAddr (by omega), if_neg (by omega), if_neg (by omega), if_pos (by omega), Nat.add_sub_cancel_left]

/-- The bytes of `OBUF` stand from 0x20000 on. -/
theorem placeAt_obuf (hcfg : cfg.ok = true) (hi : i < cfg.bufCap) :
    placeAt cfg (BitVec.ofNat 18 (0x20000 + i)) = some (.obuf i) := by
  obtain ⟨-, hcap, -⟩ := params_ranges hcfg
  unfold placeAt Config.idxCap
  rw [toNat_hostAddr (by omega), if_neg (by omega), if_neg (by omega), if_neg (by omega), if_pos (by omega),
    Nat.add_sub_cancel_left]

end

/-- Settles O49: each row and range at its address, and what is mapped is one of them. -/
theorem addressMapIsTheTable : Obligations.AddressMapIsTheTable :=
  fun _ hcfg => ⟨fun _ => placeAt_of_mem_addressTable, fun _ => placeAt_idx, fun _ => placeAt_ibuf hcfg,
    fun _ => placeAt_obuf hcfg, fun _ _ => placeAt_cases⟩

/-! ## The step of each kind of transaction -/

section
variable {s : State} {a : HostAddr} {v : BitVec 64} {rest : List HostAction} {p : Place}

/-- A write to a mapped address is the write of its place. -/
theorem step_write (hin : s.input = .write a v :: rest) (hp : placeAt s.cfg a = some p) :
    step s = writePlace p v { s with input := rest } := by
  simp only [step, hin, runAction, hp]

/-- A write to an unmapped address is ignored. -/
theorem step_write_unmapped (hin : s.input = .write a v :: rest) (hp : placeAt s.cfg a = none) :
    step s = .next { s with input := rest } := by
  simp only [step, hin, runAction, hp]

/-- No place reads the pending transactions. -/
theorem readPlace_input (p : Place) (s : State) (rest : List HostAction) :
    readPlace p { s with input := rest } = readPlace p s := by
  cases p <;> rfl

/-- A read of a mapped address outputs what its place reads as. -/
theorem step_read_ok (hin : s.input = .read a :: rest) (hp : placeAt s.cfg a = some p)
    (hv : readPlace p s = .ok v) :
    step s = .next { s with input := rest, outputs := s.outputs ++ [.readData a v] } := by
  simp only [step, hin, runAction, hp, readPlace_input, hv]

/-- A read of a byte that holds no value faults. -/
theorem step_read_error {f : Fault} (hin : s.input = .read a :: rest) (hp : placeAt s.cfg a = some p)
    (hv : readPlace p s = .error f) : step s = .fault f := by
  simp only [step, hin, runAction, hp, readPlace_input, hv]

/-- A read of an unmapped address outputs zero. -/
theorem step_read_unmapped (hin : s.input = .read a :: rest) (hp : placeAt s.cfg a = none) :
    step s = .next { s with input := rest, outputs := s.outputs ++ [.readData a 0] } := by
  simp only [step, hin, runAction, hp]

/-- The hardware reset. -/
theorem step_hardReset (hin : s.input = .hardReset :: rest) :
    step s = .next (resetBlock { s with input := rest }) := by
  simp only [step, hin, runAction]

/-- A write to `CMD`, at address 0 under every parameter, runs the command of its low byte. -/
theorem step_write_cmd (hin : s.input = .write 0x00000 v :: rest) :
    step s = runCommand (v.setWidth 8) { s with input := rest } :=
  step_write hin rfl

/-- A write to `RXDATA`, at address 1 under every parameter, is the parser step of its low byte. -/
theorem step_write_rxData (hin : s.input = .write 0x00001 v :: rest) :
    step s = exec (decodeRx (v.setWidth 8)) { s with input := rest } :=
  step_write hin rfl

end

/-! ## Resets -/

/-- Settles O41: the reset values, one by one. -/
theorem sysResetRestoresResetValues : Obligations.SysResetRestoresResetValues :=
  ⟨rfl, fun s => ⟨resetBlock s, rfl, rfl, rfl, rfl, rfl, rfl, rfl, rfl, rfl, rfl, rfl, rfl, rfl,
    fun _ => ⟨rfl, rfl, rfl⟩, rfl, rfl, rfl⟩⟩

/-- Settles O42: both are the reset of the block. -/
theorem hardwareResetIsSysReset : Obligations.HardwareResetIsSysReset :=
  fun _ _ hin => ⟨step_hardReset hin, step_hardReset hin⟩

/-! ## Commands and bytes -/

section
variable {c : Byte} {s : State}

/-- A command code runs its command. -/
theorem runCommand_ok {i : Instr} (h : decode .cmd [c] = .ok i) : runCommand c s = exec i s := by
  simp only [runCommand, h]

/-- Every other value is the illegal command. -/
theorem runCommand_error {e : DecodeError} (h : decode .cmd [c] = .error e) :
    runCommand c s = .next (illegalCommand s) := by
  simp only [runCommand, h]

/-- The 17 codes of R72 are all there are. -/
theorem mem_codes_of_decode {i : Instr} (h : decode .cmd [c] = .ok i) :
    c ∈ ([0xC1, 0xC2, 0xC3, 0xF1, 0xF2, 0xF3, 0xF4, 0xF5, 0xF6, 0xF7, 0xF8, 0xF9, 0xA1, 0xA2, 0xA3, 0xA4,
      0xE0] : List Byte) := by
  obtain ⟨hfmt, hcode⟩ := decodeCmd_ok_iff.1 h
  cases i <;> cases hfmt <;> cases hcode <;> decide

end

/-- Settles O43: a value outside the 17 codes does not decode. -/
theorem illegalCommandIsVisibleAndHarmless : Obligations.IllegalCommandIsVisibleAndHarmless := by
  intro s v rest hin hcode
  rw [step_write_cmd hin]
  cases h : decode .cmd [v.setWidth 8] with
  | ok i => exact absurd (mem_codes_of_decode h) hcode
  | error e => exact runCommand_error h

/-- Settles O44: the write of `CMD` and the write of `RXDATA`, with what their low byte decodes to. -/
theorem stepRunsTheDecodedInstruction : Obligations.StepRunsTheDecodedInstruction := by
  refine ⟨fun s v rest i hin h => ?_, fun s v rest i hin h => ?_⟩
  · rw [step_write_cmd hin, runCommand_ok h]
  · obtain rfl := Except.ok.inj h
    exact step_write_rxData hin

/-! ## Frames and messages -/

/-- Settles O36: the meaning of each frame is its record. -/
theorem framesGiveTheirRecords : Obligations.FramesGiveTheirRecords :=
  ⟨fun _ _ _ _ _ _ _ => rfl, fun _ _ _ _ => rfl, fun _ _ _ _ _ => rfl, fun _ _ _ _ _ _ _ _ _ => rfl,
    fun _ _ _ _ _ _ => rfl, fun _ _ _ _ _ => rfl⟩

/-- The dispatch of a body that is a record runs the frame of that record. -/
theorem dispatchFrame_of_instrOfBody {f : List Byte} {i : Instr} (h : instrOfBody (parseBody f) = some i)
    (s : State) : dispatchFrame f s = exec i s := by
  unfold dispatchFrame
  cases hb : parseBody f <;> rw [hb] at h <;> cases h <;> rfl

/-- A byte that closes the body to a total of 0xFF dispatches it (R183), whatever the bytes sum to. -/
theorem consume_closing {s : State} {f : List Byte} {d : Byte} (hp : s.par.pstate = .checksum)
    (hf : ReceivedIs s.par f) (hflen : s.par.flen.toNat = f.length) (htotal : s.par.sum + d = 0xFF) :
    consume d s = dispatchFrame f { s with par := { s.par with sum := 0xFF, pstate := .waitingForStart } } := by
  obtain ⟨-, hread⟩ := hf
  have hbytes : readBytes .fbuf s.par.fbuf 0 s.par.flen.toNat = .ok f := by
    rw [readBytes_ok_iff, hflen]
    exact ⟨rfl, by simpa using hread⟩
  simp only [consume, hp, consumeChecksum, htotal, hbytes, checksumOk, beq_self_eq_true, if_true]

/-- FRAG.PARSE on a row of FRAGMSG runs that message: the tag selects the parser, and the message is the encoding of
what it decodes to. -/
theorem exec_fragParse_of_decodeMsg {s : State} {m : List Byte} {i : Instr} (h : InputIs s m)
    (hi : decodeMsg m = .ok i) : exec .fragParse s = exec i s := by
  obtain ⟨-, hm⟩ := encode_of_decodeMsg hi
  obtain ⟨-, ⟨htag, hlen, rfl⟩ | ⟨htag, hlen, rfl⟩ | ⟨htag, hlen, rfl⟩⟩ := decodeMsg_ok_iff.1 hi
  all_goals
    obtain ⟨hdata, hnack, hdone, -⟩ := parseDispatchesOnTheTag.2.2 s m h (by omega)
  · rw [hdata htag, exec_fragParseData h (by omega)]
    exact congrArg (receiveData · s) hm.symm
  · rw [hnack htag, exec_fragParseNack h (by omega)]
    exact congrArg (receiveNack · s) hm.symm
  · rw [hdone htag, exec_fragParseDone h (by omega)]
    exact congrArg (receiveDone · s) hm.symm

/-- Settles O45: the closing byte dispatches the received body, FRAG.PARSE receives the input. -/
theorem stepRunsTheDecodedFrameOrMessage : Obligations.StepRunsTheDecodedFrameOrMessage := by
  refine ⟨fun s b rest f i hin hb hb' hp hf hflen htotal hi => ?_, fun s rest m i hin h hi => ?_⟩
  · obtain ⟨-, hbody⟩ := decodeFrame_ok_iff.1 hi
    obtain ⟨hstart, -⟩ | ⟨hesc, -⟩ | ⟨-, -, hd⟩ := decodeRx_cases b
    · exact absurd hstart hb
    · exact absurd hesc hb'
    · rw [step_rxWrite hin, hd, exec_rxByte_eq_consume (s := { s with input := rest }) (by simp [hp]) rfl,
        consume_closing (s := setEsc false { s with input := rest }) hp hf hflen htotal,
        dispatchFrame_of_instrOfBody hbody]
      rfl
  · rw [step_write_cmd hin]
    exact (runCommand_ok rfl).trans (exec_fragParse_of_decodeMsg (s := { s with input := rest }) h hi)

/-! ## Writes -/

/-- The place `p` reads as `x` after a write that took `s` to `t`, and nothing else of the block changed. -/
structure Written (p : Place) (x : BitVec 64) (s t : State) : Prop where
  reads : readPlace p t = .ok x
  others : ∀ q, q ≠ p → readPlace q t = readPlace q s
  par : t.par = s.par
  cfg : t.cfg = s.cfg
  outputs : t.outputs = s.outputs
  input : t.input = s.input

/-- The low `w` bits of a written value, as a host reads them back. -/
theorem setWidth_setWidth_eq_ofNat (v : BitVec 64) {w : Nat} (hw : w ≤ 64) :
    (v.setWidth w).setWidth 64 = BitVec.ofNat 64 (v.toNat % 2 ^ w) := by
  apply BitVec.eq_of_toNat_eq
  rw [BitVec.toNat_setWidth_of_le hw, BitVec.toNat_setWidth, BitVec.toNat_ofNat]
  exact (Nat.mod_eq_of_lt ((Nat.mod_le _ _).trans_lt v.isLt)).symm

/-- A write of a read/write place, place by place. -/
theorem writePlace_written {p : Place} {w : Nat} (hw : p.writableWidth = some w) (v : BitVec 64) {s : State}
    (hlen : p = .iLen → v.toNat % 2 ^ 16 ≤ s.cfg.bufCap) :
    ∃ t, writePlace p v s = .next t ∧ Written p (BitVec.ofNat 64 (v.toNat % 2 ^ w)) s t := by
  cases p with
  | cmd | rxData | ok | err | status | nextFid | cntCrcFail | cntFrameErr | crc | oLen | obuf => cases hw
  | ver | type | payLen | nCnt | radius | txOpt | fid | msgId | fragIdx | fragCnt | addr16 | atCode | totLen =>
    cases hw
    refine ⟨_, rfl, congrArg Except.ok (setWidth_setWidth_eq_ofNat v (by decide)), fun q hq => ?_, rfl, rfl, rfl, rfl⟩
    cases q <;> try rfl
    exact absurd rfl hq
  | addr64 =>
    cases hw
    have hv : v = BitVec.ofNat 64 (v.toNat % 2 ^ 64) := by
      rw [← setWidth_setWidth_eq_ofNat v (Nat.le_refl 64), BitVec.setWidth_eq, BitVec.setWidth_eq]
    refine ⟨_, rfl, congrArg Except.ok hv, fun q hq => ?_, rfl, rfl, rfl, rfl⟩
    cases q <;> try rfl
    exact absurd rfl hq
  | iLen =>
    cases hw
    have hfits : (v.setWidth 16).toNat ≤ s.cfg.bufCap := by
      rw [BitVec.toNat_setWidth]
      exact hlen rfl
    refine ⟨_, if_pos hfits, congrArg Except.ok (setWidth_setWidth_eq_ofNat v (by decide)), fun q hq => ?_,
      rfl, rfl, rfl, rfl⟩
    cases q <;> try rfl
    exact absurd rfl hq
  | idx k =>
    cases hw
    have hread (j : Nat) := IndexFile.read_write s.cmd.idxFile k j (v.setWidth 16)
    refine ⟨_, rfl, ?_, fun q hq => ?_, rfl, rfl, rfl, rfl⟩
    · simp only [readPlace, hread, if_true, setWidth_setWidth_eq_ofNat v (show 16 ≤ 64 by decide)]
    · cases q with
      | idx j => simp only [readPlace, hread, if_neg fun h : j = k => hq (congrArg Place.idx h)]
      | _ => rfl
  | ibuf i =>
    cases hw
    have hread (j : Nat) := Memory.read_write s.cmd.ibuf i j (v.setWidth 8)
    refine ⟨_, rfl, ?_, fun q hq => ?_, rfl, rfl, rfl, rfl⟩
    · simp only [readPlace, readCell, hread, if_true, setWidth_setWidth_eq_ofNat v (show 8 ≤ 64 by decide)]
    · cases q with
      | ibuf j => simp only [readPlace, readCell, hread, if_neg fun h : j = i => hq (congrArg Place.ibuf h)]
      | _ => rfl

/-- Settles O46: the write of the place, in the state with the transaction taken. -/
theorem writtenRegistersReadBack : Obligations.WrittenRegistersReadBack := by
  intro s a v rest p w _ hin hp hw hlen
  obtain ⟨t, ht, hwritten⟩ := writePlace_written hw v (s := { s with input := rest }) hlen
  exact ⟨t, (step_write hin hp).trans ht, hwritten.reads,
    fun q hq => (hwritten.others q hq).trans (readPlace_input q s rest), hwritten.par, hwritten.cfg,
    hwritten.outputs, hwritten.input⟩

/-- A write to a place that is not writable, and is neither `CMD` nor `RXDATA`, has no effect. -/
theorem writePlace_readOnly {p : Place} (hw : p.writableWidth = none) (hcmd : p ≠ .cmd) (hrx : p ≠ .rxData)
    (v : BitVec 64) (s : State) : writePlace p v s = .next s := by
  cases p with
  | cmd => exact absurd rfl hcmd
  | rxData => exact absurd rfl hrx
  | ok | err | status | nextFid | cntCrcFail | cntFrameErr | crc | oLen | obuf => rfl
  | ver | type | payLen | nCnt | radius | txOpt | fid | msgId | fragIdx | fragCnt | addr16 | atCode | totLen | addr64
  | iLen | idx | ibuf => cases hw

/-- Settles O47: the unmapped address, the read-only place, and the length that is too long. -/
theorem forbiddenWritesAreIgnored : Obligations.ForbiddenWritesAreIgnored := by
  intro s a v rest hin
  refine ⟨step_write_unmapped hin, fun p hp hcmd hrx hw => ?_, fun hp hlen => ?_⟩
  · rw [step_write hin hp, writePlace_readOnly hw hcmd hrx]
  · have hlong : ¬ (v.setWidth 16).toNat ≤ s.cfg.bufCap := by
      rw [BitVec.toNat_setWidth]
      omega
    rw [step_write hin hp]
    exact if_neg hlong

/-! ## Reads -/

/-- Every place but the bytes of `IBUF` and `OBUF` reads as some value; the write-only registers as zero. -/
theorem readPlace_register {p : Place} (hibuf : ∀ i, p ≠ .ibuf i) (hobuf : ∀ i, p ≠ .obuf i) (s : State) :
    ∃ v, readPlace p s = .ok v ∧ (p = .cmd ∨ p = .rxData → v = 0) := by
  cases p with
  | ibuf i => exact absurd rfl (hibuf i)
  | obuf i => exact absurd rfl (hobuf i)
  | cmd | rxData => exact ⟨0, rfl, fun _ => rfl⟩
  | _ =>
    refine ⟨_, rfl, ?_⟩
    rintro (hcmd | hrx)
    · cases hcmd
    · cases hrx

section
variable {s : State} {a : HostAddr} {p : Place}

/-- A place that reads as a field of the state gives the number in that field. -/
theorem readGives_field {w : Nat} {x : BitVec w} (hp : placeAt s.cfg a = some p)
    (hv : readPlace p s = .ok (x.setWidth 64)) : ReadGives s a (BitVec.ofNat 64 x.toNat) := by
  rw [BitVec.ofNat_toNat]
  exact readGives_of hp fun inp => (readPlace_input p s inp).trans hv

/-- A written byte of a buffer reads as that byte. -/
theorem readCell_some {sp : Space} {m : Memory} {i : Nat} {b : Byte} (h : Memory.read m i = some b) :
    readCell sp m i = .ok (b.setWidth 64) := by
  simp only [readCell, h]

/-- A byte of a buffer that holds no value faults. -/
theorem readCell_none {sp : Space} {m : Memory} {i : Nat} (h : Memory.read m i = none) :
    readCell sp m i = .error (.noValue sp i) := by
  simp only [readCell, h]

/-- `OK` as the host reads it. -/
theorem readGives_ok : ReadGives s 0x00002 (if s.cmd.ok = true then 1 else 0) := by
  have hbit : (BitVec.ofBool s.cmd.ok).setWidth 64 = if s.cmd.ok = true then 1 else 0 := by
    cases s.cmd.ok <;> rfl
  rw [← hbit]
  exact readGives_of (p := .ok) rfl fun _ => rfl

/-- Whatever the host reads, the read outputs what the place reads as and changes nothing else. -/
theorem step_read_next {t : State} {rest : List HostAction} (hin : s.input = .read a :: rest)
    (h : step s = .next t) :
    ∃ v, t = { s with input := rest, outputs := s.outputs ++ [.readData a v] } ∧
      ∀ p, placeAt s.cfg a = some p → readPlace p s = .ok v := by
  cases hp : placeAt s.cfg a with
  | none =>
    rw [step_read_unmapped hin hp] at h
    cases h
    exact ⟨0, rfl, fun p hsome => by cases hsome⟩
  | some p =>
    cases hv : readPlace p s with
    | error f =>
      rw [step_read_error hin hp hv] at h
      cases h
    | ok v =>
      rw [step_read_ok hin hp hv] at h
      cases h
      refine ⟨v, rfl, fun q hq => ?_⟩
      obtain rfl := Option.some.inj hq
      exact hv

end

/-- Settles O48: a read by its place, and the registers one by one. -/
theorem readsChangeNothing : Obligations.ReadsChangeNothing := by
  refine ⟨fun s a rest hin => ⟨fun t => step_read_next hin, step_read_unmapped hin, fun p hp hibuf hobuf => ?_⟩,
    fun s => ⟨readGives_ok, readGives_field (p := .err) rfl rfl, readGives_field (p := .nextFid) rfl rfl,
      readGives_of (p := .cntCrcFail) rfl fun _ => rfl, readGives_of (p := .cntFrameErr) rfl fun _ => rfl,
      readGives_field (p := .ver) rfl rfl, readGives_field (p := .type) rfl rfl,
      readGives_field (p := .msgId) rfl rfl, readGives_field (p := .totLen) rfl rfl,
      readGives_field (p := .fragIdx) rfl rfl, readGives_field (p := .fragCnt) rfl rfl,
      readGives_field (p := .payLen) rfl rfl, readGives_field (p := .nCnt) rfl rfl,
      readGives_field (p := .crc) rfl rfl, readGives_of (p := .addr64) rfl fun _ => rfl,
      readGives_field (p := .addr16) rfl rfl, readGives_field (p := .radius) rfl rfl,
      readGives_field (p := .txOpt) rfl rfl, readGives_field (p := .fid) rfl rfl,
      readGives_field (p := .atCode) rfl rfl, readGives_field (p := .iLen) rfl rfl,
      readGives_field (p := .oLen) rfl rfl, fun k hk => readGives_field (placeAt_idx hk) rfl,
      fun i hcfg hi => ⟨fun b hb => readGives_field (placeAt_ibuf hcfg hi) (readCell_some hb),
        fun b hb => readGives_field (placeAt_obuf hcfg hi) (readCell_some hb),
        fun hnone rest => step_read_error rfl (placeAt_ibuf hcfg hi) (readCell_none hnone),
        fun hnone rest => step_read_error rfl (placeAt_obuf hcfg hi) (readCell_none hnone)⟩⟩⟩
  obtain ⟨v, hv, hzero⟩ := readPlace_register hibuf hobuf s
  exact ⟨v, step_read_ok hin hp hv, hzero⟩

end Sys2Proof.Machine
end

section
/-! SUPPORT. What a command can do, said once for the 16 commands other than SYS.RESET (60_exceptions section 3, the
table of 10_state section 2): it delivers what its row lists and succeeds, or it fails and changes nothing else. -/

namespace Sys2Proof.Machine

/-! ## What a command delivers -/

/-- A string that fits is stored in the output. -/
def StoresOutput (s u : State) : Prop := ∃ o, o.length ≤ s.cfg.bufCap ∧ u = setOutput o s

/-- A string that fits is stored in the output, and a CRC. -/
def StoresMessage (s u : State) : Prop := ∃ o v, o.length ≤ s.cfg.bufCap ∧ u = setCrc v (setOutput o s)

/-- A DATA fragment goes to the header registers, the output and `CRC` (R133). -/
def DeliversData (s u : State) : Prop :=
  ∃ m o v, o.length ≤ s.cfg.bufCap ∧ u = setCrc v (setOutput o (deliverHeader m s))

/-- A NACK goes to its registers, `IDX` and `CRC` (R135). -/
def DeliversNack (s u : State) : Prop := ∃ m v, u = setCrc v (deliverNack m s)

/-- A DONE goes to its registers and `CRC` (R137). -/
def DeliversDone (s u : State) : Prop := ∃ m v, u = setCrc v (deliverDone m s)

/-- What each command writes before it succeeds (R23). -/
def Delivers (i : Instr) (s u : State) : Prop :=
  match i with
  | .crcCompute => ∃ v, u = setCrc v s
  | .crcVerify => u = s
  | .crcAppend | .fragEncData | .fragBuildNack | .fragBuildDone => StoresMessage s u
  | .fragEncHdr | .apiBuildTx | .apiBuildAt => StoresOutput s u
  | .apiBuildTxAuto | .apiBuildAtAuto => StoresOutput (takeFrameId s) u
  | .fragDecHdr => ∃ m, u = deliverHeader m s
  | .fragParseData => DeliversData s u
  | .fragParseNack => DeliversNack s u
  | .fragParseDone => DeliversDone s u
  | .fragParse => DeliversData s u ∨ DeliversNack s u ∨ DeliversDone s u
  | _ => False

/-- Every way the command `i` can end in `s`. -/
inductive CommandNext (i : Instr) (s : State) : State → Prop where
  /-- It succeeds on what it delivered (R223). -/
  | success {u : State} (h : Delivers i s u) : CommandNext i s (succeed u)
  /-- It fails, and no counter moves (R222). -/
  | failure (e : CmdError) (he : e ≠ .illegalCmd) (hcrc : e = .crc → countsCrcFailure i = false) :
      CommandNext i s (raise e s)
  /-- It drops a message for its CRC, and counts it (R132). -/
  | crcDrop (hi : countsCrcFailure i = true) : CommandNext i s (raiseCrcDrop s)

/-! ## Results whose next states all satisfy a predicate, with what led to them -/

section
variable {P : State → Prop} {s : State}

theorem everyNext_ite_of {c : Prop} [Decidable c] {r r' : Result} (h : c → EveryNext P r)
    (h' : ¬c → EveryNext P r') : EveryNext P (if c then r else r') := by
  split
  · rename_i hc
    exact h hc
  · rename_i hc
    exact h' hc

theorem everyNext_withInput_of {k : List Byte → Result} (h : ∀ inp, InputIs s inp → EveryNext P (k inp)) :
    EveryNext P (withInput s k) := by
  intro t ht
  obtain ⟨inp, hinp, hk⟩ := withInput_next ht
  exact h inp hinp t hk

theorem everyNext_storeOutput_of {o : List Byte} {k : State → Result}
    (h : o.length ≤ s.cfg.bufCap → EveryNext P (k (setOutput o s))) : EveryNext P (storeOutput o s k) := by
  intro t ht
  obtain ⟨hfits, hk⟩ := storeOutput_next.1 ht
  exact h hfits t hk

end

/-! ## Every command -/

section
variable {i : Instr} {s : State}

theorem everyNext_success {u : State} (h : Delivers i s u) : EveryNext (CommandNext i s) (.next (succeed u)) :=
  everyNext_next (.success h)

theorem everyNext_failure {e : CmdError} (he : e ≠ .illegalCmd ∧ e ≠ .crc) :
    EveryNext (CommandNext i s) (.next (raise e s)) :=
  everyNext_next (.failure e he.1 fun hcrc => absurd hcrc he.2)

/-- Storing a message is the whole of a serializer. -/
theorem storeMessage_commandNext {m : List Byte} (h : ∀ u, StoresMessage s u → Delivers i s u) :
    EveryNext (CommandNext i s) (storeMessage m s) :=
  everyNext_storeOutput_of fun hfits => everyNext_success (h _ ⟨_, _, hfits, rfl⟩)

/-- A frame is sent whole, or the command fails for its length. -/
theorem sendFrame_commandNext {body : List Byte} {s' : State} (hcfg : s'.cfg = s.cfg)
    (h : ∀ u, StoresOutput s' u → Delivers i s u) : EveryNext (CommandNext i s) (sendFrame body s s') :=
  everyNext_ite_of (fun _ => everyNext_failure (by decide)) fun hfits =>
    everyNext_success (h _ ⟨_, by rw [hcfg]; exact Nat.not_lt.1 hfits, rfl⟩)

/-- The tests of R131: a bad CRC drops the message, every other failed test is an error of its own. -/
theorem validate_commandNext {tag : Byte} {len : Nat} {m : List Byte} {k : Result}
    (hi : countsCrcFailure i = true) (h : EveryNext (CommandNext i s) k) :
    EveryNext (CommandNext i s) (validate tag len m s k) :=
  everyNext_ite (everyNext_next (.crcDrop hi)) (everyNext_ite (everyNext_failure (by decide))
    (everyNext_ite (everyNext_failure (by decide)) (everyNext_ite (everyNext_failure (by decide)) h)))

/-- FRAG.PARSE_DATA, or FRAG.PARSE on its tag. -/
theorem parseData_commandNext (hi : countsCrcFailure i = true) (h : ∀ u, DeliversData s u → Delivers i s u) :
    EveryNext (CommandNext i s) (receiveInput 15 receiveData s) :=
  everyNext_ite (everyNext_failure (by decide)) (everyNext_withInput fun _ => validate_commandNext hi
    (everyNext_storeOutput_of fun hfits => everyNext_success (h _ ⟨_, _, _, hfits, rfl⟩)))

/-- FRAG.PARSE_NACK, or FRAG.PARSE on its tag. -/
theorem parseNack_commandNext (hi : countsCrcFailure i = true) (h : ∀ u, DeliversNack s u → Delivers i s u) :
    EveryNext (CommandNext i s) (receiveInput 7 receiveNack s) :=
  everyNext_ite (everyNext_failure (by decide)) (everyNext_withInput fun _ => validate_commandNext hi
    (everyNext_success (h _ ⟨_, _, rfl⟩)))

/-- FRAG.PARSE_DONE, or FRAG.PARSE on its tag. -/
theorem parseDone_commandNext (hi : countsCrcFailure i = true) (h : ∀ u, DeliversDone s u → Delivers i s u) :
    EveryNext (CommandNext i s) (receiveInput 6 receiveDone s) :=
  everyNext_ite (everyNext_failure (by decide)) (everyNext_withInput fun _ => validate_commandNext hi
    (everyNext_success (h _ ⟨_, _, rfl⟩)))

@[simp] theorem takeFrameId_cfg (s : State) : (takeFrameId s).cfg = s.cfg := by rw [takeFrameId_eq]

/-- Every command but SYS.RESET ends in one of the ways of `CommandNext`. -/
theorem exec_commandNext (hfmt : i.format = .cmd) (hreset : i ≠ .sysReset) :
    EveryNext (CommandNext i s) (exec i s) := by
  cases i with
  | crcCompute => exact everyNext_withInput fun _ => everyNext_success ⟨_, rfl⟩
  | crcVerify =>
    exact everyNext_ite (everyNext_failure (by decide)) (everyNext_withInput fun _ =>
      everyNext_ite (everyNext_success rfl) (everyNext_next (.failure .crc (by decide) fun _ => rfl)))
  | crcAppend =>
    refine everyNext_ite_of (fun _ => everyNext_failure (by decide)) fun hfits =>
      everyNext_withInput_of fun inp hinp => everyNext_success ⟨_, _, ?_, rfl⟩
    have hlen : inp.length = inputLen s := hinp.1
    rw [length_crcAppend]
    omega
  | fragEncHdr =>
    exact everyNext_storeOutput_of (k := fun t => .next (succeed t)) fun hfits => everyNext_success ⟨_, hfits, rfl⟩
  | fragEncData =>
    exact everyNext_ite (everyNext_failure (by decide)) (everyNext_withInput fun _ =>
      storeMessage_commandNext fun _ h => h)
  | fragBuildNack => exact storeMessage_commandNext fun _ h => h
  | fragBuildDone => exact storeMessage_commandNext fun _ h => h
  | fragDecHdr =>
    exact everyNext_ite (everyNext_failure (by decide)) (everyNext_withBytes fun _ => everyNext_success ⟨_, rfl⟩)
  | fragParseData => exact parseData_commandNext rfl fun _ h => h
  | fragParseNack => exact parseNack_commandNext rfl fun _ h => h
  | fragParseDone => exact parseDone_commandNext rfl fun _ h => h
  | fragParse =>
    exact everyNext_ite (everyNext_failure (by decide)) (everyNext_withBytes fun _ =>
      everyNext_ite (parseData_commandNext rfl fun _ h => .inl h)
        (everyNext_ite (parseNack_commandNext rfl fun _ h => .inr (.inl h))
          (everyNext_ite (parseDone_commandNext rfl fun _ h => .inr (.inr h)) (everyNext_failure (by decide)))))
  | apiBuildTx => exact everyNext_withInput fun _ => sendFrame_commandNext rfl fun _ h => h
  | apiBuildTxAuto => exact everyNext_withInput fun _ => sendFrame_commandNext (takeFrameId_cfg s) fun _ h => h
  | apiBuildAt => exact everyNext_withInput fun _ => sendFrame_commandNext rfl fun _ h => h
  | apiBuildAtAuto => exact everyNext_withInput fun _ => sendFrame_commandNext (takeFrameId_cfg s) fun _ h => h
  | sysReset => exact absurd rfl hreset
  | frameTxRequest | frameAtCommand | frameRxPacket | frameExplicitRx | frameTxStatus | frameAtResponse | msgData
  | msgNack | msgDone | rxStart | rxEscape | rxByte => cases hfmt

/-- What a command delivers does not touch `CNT_CRC_FAIL`. -/
theorem Delivers.cntCrcFail {u : State} (h : Delivers i s u) : u.cmd.cntCrcFail = s.cmd.cntCrcFail := by
  cases i with
  | crcCompute => obtain ⟨v, rfl⟩ := h; rfl
  | crcVerify => obtain rfl := h; rfl
  | crcAppend | fragEncData | fragBuildNack | fragBuildDone => obtain ⟨o, v, -, rfl⟩ := h; rfl
  | fragEncHdr | apiBuildTx | apiBuildAt => obtain ⟨o, -, rfl⟩ := h; rfl
  | apiBuildTxAuto | apiBuildAtAuto =>
    obtain ⟨o, -, rfl⟩ := h
    rw [takeFrameId_eq]
    rfl
  | fragDecHdr => obtain ⟨m, rfl⟩ := h; rfl
  | fragParseData => obtain ⟨m, o, v, -, rfl⟩ := h; rfl
  | fragParseNack | fragParseDone => obtain ⟨m, v, rfl⟩ := h; rfl
  | fragParse => obtain ⟨m, o, v, -, rfl⟩ | ⟨m, v, rfl⟩ | ⟨m, v, rfl⟩ := h <;> rfl
  | _ => exact h.elim

end

/-- `E_CRC` is the error whose value is 0x03. -/
theorem CmdError.eq_crc_of_code {e : CmdError} (h : e.code = 0x03) : e = .crc := by
  cases e with
  | crc => rfl
  | _ => cases h

/-- A failure that is not the counted drop has another code than `E_CRC`, or is of a command that counts nothing. -/
theorem not_counted_of_failure {i : Instr} {e : CmdError} (hcrc : e = .crc → countsCrcFailure i = false) :
    ¬(countsCrcFailure i = true ∧ e.code = 0x03) := by
  rintro ⟨hcounts, hthree⟩
  rw [hcrc (CmdError.eq_crc_of_code hthree)] at hcounts
  cases hcounts

/-- Settles O51: success, failure without a count, and the counted drop. -/
theorem commandsReportTheirOutcome : Obligations.CommandsReportTheirOutcome := by
  intro i s t hfmt hreset h
  cases exec_commandNext hfmt hreset t h with
  | success hu => exact .inl ⟨rfl, rfl, hu.cntCrcFail⟩
  | failure e he hcrc =>
    have hcode : 0x02 ≤ e.code.toNat ∧ e.code.toNat ≤ 0x08 := by
      cases e with
      | illegalCmd => exact absurd rfl he
      | _ => decide
    exact .inr ⟨e.code, hcode.1, hcode.2, (if_neg (not_counted_of_failure hcrc)).symm⟩
  | crcDrop hi => exact .inr ⟨0x03, by decide, by decide, (if_pos ⟨hi, rfl⟩).symm⟩

/-! ## What a command leaves unchanged -/

section
variable {s t : State}

/-- CRC.COMPUTE writes `CRC`, `OK` and `ERR`. -/
theorem crcCompute_frame (h : CommandNext .crcCompute s t) :
    t = { s with cmd := { s.cmd with crc := t.cmd.crc, ok := t.cmd.ok, err := t.cmd.err } } := by
  cases h with
  | success hu => obtain ⟨v, rfl⟩ := hu; rfl
  | failure => rfl
  | crcDrop hi => cases hi

/-- CRC.VERIFY writes `OK` and `ERR`. -/
theorem crcVerify_frame (h : CommandNext .crcVerify s t) :
    t = { s with cmd := { s.cmd with ok := t.cmd.ok, err := t.cmd.err } } := by
  cases h with
  | success hu => obtain rfl := hu; rfl
  | failure => rfl
  | crcDrop hi => cases hi

/-- The commands that build a message write `CRC`, `OBUF`, `OLEN`, `OK` and `ERR`. -/
theorem storesMessage_frame {i : Instr}
    (hi : i = .crcAppend ∨ i = .fragEncData ∨ i = .fragBuildNack ∨ i = .fragBuildDone) (h : CommandNext i s t) :
    t = { s with cmd := { s.cmd with
      crc := t.cmd.crc, obuf := t.cmd.obuf, oLen := t.cmd.oLen, ok := t.cmd.ok, err := t.cmd.err } } := by
  cases h with
  | @success u hu =>
    have hstores : StoresMessage s u := by
      obtain rfl | rfl | rfl | rfl := hi <;> exact hu
    obtain ⟨o, v, -, rfl⟩ := hstores
    rfl
  | failure => rfl
  | crcDrop hcounts => obtain rfl | rfl | rfl | rfl := hi <;> cases hcounts

/-- The commands that build a header or a frame with `FID` as it is write `OBUF`, `OLEN`, `OK` and `ERR`. -/
theorem storesOutput_frame {i : Instr} (hi : i = .fragEncHdr ∨ i = .apiBuildTx ∨ i = .apiBuildAt)
    (h : CommandNext i s t) :
    t = { s with cmd := { s.cmd with
      obuf := t.cmd.obuf, oLen := t.cmd.oLen, ok := t.cmd.ok, err := t.cmd.err } } := by
  cases h with
  | @success u hu =>
    have hstores : StoresOutput s u := by
      obtain rfl | rfl | rfl := hi <;> exact hu
    obtain ⟨o, -, rfl⟩ := hstores
    rfl
  | failure => rfl
  | crcDrop hcounts => obtain rfl | rfl | rfl := hi <;> cases hcounts

/-- The `_AUTO` builders write those, and only on a zero `FID` the frame id and the generator. -/
theorem auto_frame {i : Instr} (hi : i = .apiBuildTxAuto ∨ i = .apiBuildAtAuto) (h : CommandNext i s t) :
    t = { s with cmd := { s.cmd with
      obuf := t.cmd.obuf, oLen := t.cmd.oLen, ok := t.cmd.ok, err := t.cmd.err,
      fid := if s.cmd.fid = 0 then t.cmd.fid else s.cmd.fid,
      nextFid := if s.cmd.fid = 0 then t.cmd.nextFid else s.cmd.nextFid } } := by
  cases h with
  | @success u hu =>
    have hstores : StoresOutput (takeFrameId s) u := by
      obtain rfl | rfl := hi <;> exact hu
    obtain ⟨o, -, rfl⟩ := hstores
    unfold takeFrameId
    by_cases hzero : s.cmd.fid = 0
    · simp only [if_pos hzero]
      rfl
    · simp only [if_neg hzero]
      rfl
  | failure e =>
    simp only [raise_cmd_fid, raise_cmd_nextFid, ite_self]
    rfl
  | crcDrop hcounts => obtain rfl | rfl := hi <;> cases hcounts

/-- FRAG.DEC_HDR writes the header registers, `OK` and `ERR`. -/
theorem fragDecHdr_frame (h : CommandNext .fragDecHdr s t) :
    t = { s with cmd := { s.cmd with
      ver := t.cmd.ver, type := t.cmd.type, msgId := t.cmd.msgId, totLen := t.cmd.totLen, fragIdx := t.cmd.fragIdx,
      fragCnt := t.cmd.fragCnt, payLen := t.cmd.payLen, ok := t.cmd.ok, err := t.cmd.err } } := by
  cases h with
  | success hu => obtain ⟨m, rfl⟩ := hu; rfl
  | failure => rfl
  | crcDrop hi => cases hi

/-- FRAG.PARSE_DATA writes the header registers, `CRC`, the output, `OK`, `ERR` and the counter. -/
theorem fragParseData_frame (h : CommandNext .fragParseData s t) :
    t = { s with cmd := { s.cmd with
      ver := t.cmd.ver, type := t.cmd.type, msgId := t.cmd.msgId, totLen := t.cmd.totLen, fragIdx := t.cmd.fragIdx,
      fragCnt := t.cmd.fragCnt, payLen := t.cmd.payLen, crc := t.cmd.crc, obuf := t.cmd.obuf, oLen := t.cmd.oLen,
      ok := t.cmd.ok, err := t.cmd.err, cntCrcFail := t.cmd.cntCrcFail } } := by
  cases h with
  | success hu => obtain ⟨m, o, v, -, rfl⟩ := hu; rfl
  | failure => rfl
  | crcDrop => rfl

/-- FRAG.PARSE_NACK writes its registers, `IDX` below the count, `CRC`, `OK`, `ERR` and the counter. -/
theorem fragParseNack_frame (h : CommandNext .fragParseNack s t) :
    (∀ k, t.cmd.nCnt.toNat ≤ k → IndexFile.read t.cmd.idxFile k = IndexFile.read s.cmd.idxFile k) ∧
    t = { s with cmd := { s.cmd with
      ver := t.cmd.ver, type := t.cmd.type, msgId := t.cmd.msgId, nCnt := t.cmd.nCnt, idxFile := t.cmd.idxFile,
      crc := t.cmd.crc, ok := t.cmd.ok, err := t.cmd.err, cntCrcFail := t.cmd.cntCrcFail } } := by
  cases h with
  | success hu =>
    obtain ⟨m, v, rfl⟩ := hu
    exact ⟨fun k hk => (read_idxFile_deliverNack m s k).trans (if_neg (Nat.not_lt.2 hk)), rfl⟩
  | failure => exact ⟨fun _ _ => rfl, rfl⟩
  | crcDrop => exact ⟨fun _ _ => rfl, rfl⟩

/-- FRAG.PARSE_DONE writes its registers, `CRC`, `OK`, `ERR` and the counter. -/
theorem fragParseDone_frame (h : CommandNext .fragParseDone s t) :
    t = { s with cmd := { s.cmd with
      ver := t.cmd.ver, type := t.cmd.type, msgId := t.cmd.msgId, crc := t.cmd.crc, ok := t.cmd.ok,
      err := t.cmd.err, cntCrcFail := t.cmd.cntCrcFail } } := by
  cases h with
  | success hu => obtain ⟨m, v, rfl⟩ := hu; rfl
  | failure => rfl
  | crcDrop => rfl

end

/-- Settles O52, row by row of the table. -/
theorem commandsWriteOnlyTheirRegisters : Obligations.CommandsWriteOnlyTheirRegisters := by
  refine ⟨fun s t h => crcCompute_frame (exec_commandNext rfl (by decide) t h),
    fun s t h => crcVerify_frame (exec_commandNext rfl (by decide) t h),
    fun i s t hi h => storesMessage_frame hi (exec_commandNext ?_ ?_ t h),
    fun i s t hi h => storesOutput_frame hi (exec_commandNext ?_ ?_ t h),
    fun i s t hi h => auto_frame hi (exec_commandNext ?_ ?_ t h),
    fun s t h => fragDecHdr_frame (exec_commandNext rfl (by decide) t h),
    fun s t h => fragParseData_frame (exec_commandNext rfl (by decide) t h),
    fun s t h => fragParseNack_frame (exec_commandNext rfl (by decide) t h),
    fun s t h => fragParseDone_frame (exec_commandNext rfl (by decide) t h)⟩
  · obtain rfl | rfl | rfl | rfl := hi <;> rfl
  · obtain rfl | rfl | rfl | rfl := hi <;> decide
  · obtain rfl | rfl | rfl := hi <;> rfl
  · obtain rfl | rfl | rfl := hi <;> decide
  · obtain rfl | rfl := hi <;> rfl
  · obtain rfl | rfl := hi <;> decide

end Sys2Proof.Machine
end

section
/-! SUPPORT. The error counters (60_exceptions section 9): what a parser step counts, what one host transaction can do,
and from both that only a reset clears a counter. -/

namespace Sys2Proof.Machine

/-! ## What a parser step counts -/

/-- From `s` to `t` an `ERR` event is output and counted, or neither: then there is no event or one of another kind. -/
def CountsErrors (s t : State) : Prop :=
  (∃ c, t.outputs = s.outputs ++ [.event (.error c)] ∧
    t.par.cntFrameErr = (s.par.cntFrameErr + 1) % 2 ^ s.cfg.cntW) ∨
  (t.par.cntFrameErr = s.par.cntFrameErr ∧
    (t.outputs = s.outputs ∨ ∃ e, t.outputs = s.outputs ++ [.event e] ∧ e.isError = false))

/-- An event that counts is an `ERR` event. -/
theorem Event.exists_code_of_isError {e : Event} (h : e.isError = true) : ∃ c, e = .error c := by
  cases e with
  | error c => exact ⟨c, rfl⟩
  | _ => cases h

section
variable {s t : State}

/-- The dispatch of a body counts its event. -/
theorem dispatchFrame_countsErrors {f : List Byte} (hp : s.par.pstate = .waitingForStart)
    (h : dispatchFrame f s = .next t) : CountsErrors s t := by
  rw [dispatchFrame_eq f hp] at h
  cases h
  cases he : (frameEvent f).isError with
  | true =>
    obtain ⟨c, hc⟩ := Event.exists_code_of_isError he
    exact .inl ⟨c, by rw [hc], rfl⟩
  | false => exact .inr ⟨rfl, .inr ⟨_, rfl, he⟩⟩

/-- Consuming a byte counts its event, in every state of the parser. -/
theorem consume_countsErrors {d : Byte} (h : consume d s = .next t) : CountsErrors s t := by
  unfold consume at h
  cases hp : s.par.pstate <;> rw [hp] at h
  case waitingForStart =>
    cases h
    exact .inr ⟨rfl, .inl rfl⟩
  case lengthMsb =>
    cases h
    exact .inr ⟨rfl, .inl rfl⟩
  case lengthLsb =>
    obtain ⟨-, hx⟩ | ⟨-, hx⟩ := consumeLengthLsb_cases d s <;> rw [hx] at h <;> cases h
    · exact .inr ⟨rfl, .inl rfl⟩
    · exact .inl ⟨_, rfl, rfl⟩
  case frameData =>
    obtain ⟨-, rfl⟩ := consumeFrameData_next h
    exact .inr ⟨rfl, .inl rfl⟩
  case checksum =>
    obtain ⟨-, rfl⟩ | ⟨-, f, -, hdis⟩ := consumeChecksum_next h
    · exact .inl ⟨_, rfl, rfl⟩
    · have hcounts := dispatchFrame_countsErrors rfl hdis
      exact hcounts

/-- A parser step counts its event. -/
theorem parserStep_countsErrors {b : Byte} (h : exec (decodeRx b) s = .next t) : CountsErrors s t := by
  obtain ⟨-, rfl⟩ | ⟨-, rfl, -⟩ | ⟨-, -, -, rfl⟩ | ⟨-, -, -, hc⟩ := parserStep_next h
  · exact .inr ⟨rfl, .inl rfl⟩
  · exact .inr ⟨rfl, .inl rfl⟩
  · exact .inr ⟨rfl, .inl rfl⟩
  · have hcounts := consume_countsErrors hc
    exact hcounts

/-- A counted error or none: `CNT_FRAME_ERR` counts one up or stays. -/
theorem CountsErrors.cntFrameErr (h : CountsErrors s t) :
    t.par.cntFrameErr = s.par.cntFrameErr ∨ t.par.cntFrameErr = (s.par.cntFrameErr + 1) % 2 ^ s.cfg.cntW := by
  obtain ⟨-, -, hup⟩ | ⟨hstays, -⟩ := h
  · exact .inr hup
  · exact .inl hstays

end

/-! ## What one transaction can do -/

/-- Every way the transaction `act` can end in `s`, the transaction taken. -/
inductive ActionNext (s : State) (act : HostAction) : State → Prop where
  /-- The hardware reset. -/
  | reset (h : act = .hardReset) : ActionNext s act (resetBlock s)
  /-- A command code was written to `CMD`. -/
  | command {v : BitVec 64} {i : Instr} {t : State} (h : act = .write 0x00000 v)
      (hi : decode .cmd [v.setWidth 8] = .ok i) (ht : exec i s = .next t) : ActionNext s act t
  /-- Another value was written to `CMD`. -/
  | illegal : ActionNext s act (illegalCommand s)
  /-- A byte was written to `RXDATA`. -/
  | byte {b : Byte} {t : State} (ht : exec (decodeRx b) s = .next t) : ActionNext s act t
  /-- A read/write place was written. -/
  | stored {a : HostAddr} {v : BitVec 64} {p : Place} {w : Nat} {t : State} (hp : placeAt s.cfg a = some p)
      (hw : p.writableWidth = some w) (ht : writePlace p v s = .next t) : ActionNext s act t
  /-- Another address was written. -/
  | ignored : ActionNext s act s
  /-- An address was read. -/
  | read {a : HostAddr} {v : BitVec 64} : ActionNext s act { s with outputs := s.outputs ++ [.readData a v] }

/-- Only address 0 is `CMD`. -/
theorem eq_zero_of_placeAt_cmd {cfg : Params} {a : HostAddr} (h : placeAt cfg a = some .cmd) : a = 0x00000 := by
  have hrow : ∀ e ∈ addressTable, e.2 = .cmd → e.1 = 0 := by decide
  obtain hmem | ⟨i, -, -, hp⟩ | ⟨i, -, -, hp⟩ | ⟨i, -, -, hp⟩ := placeAt_cases h
  · exact BitVec.eq_of_toNat_eq (hrow _ hmem rfl)
  all_goals cases hp

section
variable {s t : State}

/-- A write to a mapped address, by its place. -/
theorem writePlace_actionNext {a : HostAddr} {v : BitVec 64} {p : Place} (hp : placeAt s.cfg a = some p)
    (h : writePlace p v s = .next t) : ActionNext s (.write a v) t := by
  cases hw : p.writableWidth with
  | some w => exact .stored hp hw h
  | none =>
    by_cases hcmd : p = .cmd
    · obtain rfl := hcmd
      have hrun : runCommand (v.setWidth 8) s = .next t := h
      cases hi : decode .cmd [v.setWidth 8] with
      | ok i => exact .command (by rw [eq_zero_of_placeAt_cmd hp]) hi (runCommand_ok hi ▸ hrun)
      | error e =>
        rw [runCommand_error hi] at hrun
        cases hrun
        exact .illegal
    by_cases hrx : p = .rxData
    · obtain rfl := hrx
      exact .byte (b := v.setWidth 8) h
    · rw [writePlace_readOnly hw hcmd hrx] at h
      cases h
      exact .ignored

/-- A step that answers a next state had no transaction to take, or ended in one of the ways of `ActionNext`. -/
theorem step_next (h : step s = .next t) :
    (s.input = [] ∧ t = s) ∨
    ∃ act rest, s.input = act :: rest ∧ ActionNext { s with input := rest } act t := by
  cases hin : s.input with
  | nil =>
    rw [step, hin] at h
    cases h
    exact .inl ⟨rfl, rfl⟩
  | cons act rest =>
    refine .inr ⟨act, rest, rfl, ?_⟩
    cases act with
    | hardReset =>
      rw [step_hardReset hin] at h
      cases h
      exact .reset rfl
    | read a =>
      obtain ⟨v, rfl, -⟩ := step_read_next hin h
      exact .read
    | write a v =>
      cases hp : placeAt s.cfg a with
      | none =>
        rw [step_write_unmapped hin hp] at h
        cases h
        exact .ignored
      | some p =>
        rw [step_write hin hp] at h
        exact writePlace_actionNext hp h

end

/-! ## The counters -/

/-- A command counts the CRC failures of the four parse commands, and never a frame error. -/
theorem command_counts {i : Instr} {s t : State} (hfmt : i.format = .cmd) (hreset : i ≠ .sysReset)
    (h : exec i s = .next t) :
    t.par.cntFrameErr = s.par.cntFrameErr ∧
    t.cmd.cntCrcFail = if countsCrcFailure i = true ∧ t.cmd.err = 0x03 then (s.cmd.cntCrcFail + 1) % 2 ^ s.cfg.cntW
      else s.cmd.cntCrcFail := by
  refine ⟨by rw [exec_command_frame hfmt hreset h], ?_⟩
  cases exec_commandNext hfmt hreset t h with
  | success hu =>
    rw [if_neg fun hcounts => absurd hcounts.2 (by rw [succeed_cmd_err]; decide)]
    exact hu.cntCrcFail
  | failure e he hcrc => exact (if_neg (not_counted_of_failure hcrc)).symm
  | crcDrop hi => exact (if_pos ⟨hi, rfl⟩).symm

/-- From `s` to `t` each counter stays or counts one up. -/
def CountersMove (s t : State) : Prop :=
  (t.cmd.cntCrcFail = s.cmd.cntCrcFail ∨ t.cmd.cntCrcFail = (s.cmd.cntCrcFail + 1) % 2 ^ s.cfg.cntW) ∧
  (t.par.cntFrameErr = s.par.cntFrameErr ∨ t.par.cntFrameErr = (s.par.cntFrameErr + 1) % 2 ^ s.cfg.cntW)

/-- From `s` to `t` both counters are cleared, and the next transaction of `s` is a reset. -/
def CountersClear (s t : State) : Prop :=
  t.cmd.cntCrcFail = 0 ∧ t.par.cntFrameErr = 0 ∧
    ∃ rest, s.input = .hardReset :: rest ∨ ∃ v, s.input = .write 0x00000 v :: rest ∧ v.setWidth 8 = (0xE0 : Byte)

/-- A write of a read/write place moves no counter. -/
theorem writePlace_counters {p : Place} {w : Nat} {v : BitVec 64} {s t : State} (hw : p.writableWidth = some w)
    (h : writePlace p v s = .next t) :
    t.cmd.cntCrcFail = s.cmd.cntCrcFail ∧ t.par.cntFrameErr = s.par.cntFrameErr := by
  cases p with
  | iLen =>
    simp only [writePlace] at h
    split at h <;> cases h <;> exact ⟨rfl, rfl⟩
  | cmd | rxData | ok | err | status | nextFid | cntCrcFail | cntFrameErr | crc | oLen | obuf => cases hw
  | _ => cases h; exact ⟨rfl, rfl⟩

/-- A step moves the counters as one of the two units may, or is a reset. -/
theorem step_counters {s t : State} (h : step s = .next t) : CountersMove s t ∨ CountersClear s t := by
  obtain ⟨-, rfl⟩ | ⟨act, rest, hin, hnext⟩ := step_next h
  · exact .inl ⟨.inl rfl, .inl rfl⟩
  cases hnext with
  | reset hact => exact .inr ⟨rfl, rfl, rest, .inl (hact ▸ hin)⟩
  | @command v i _ hact hi ht =>
    obtain ⟨hfmt, hcode⟩ := decodeCmd_ok_iff.1 hi
    by_cases hreset : i = .sysReset
    · subst hreset
      cases ht
      exact .inr ⟨rfl, rfl, rest, .inr ⟨v, hact ▸ hin, (List.singleton_inj.1 hcode).symm⟩⟩
    · obtain ⟨hframe, hcrc⟩ := command_counts hfmt hreset ht
      refine .inl ⟨?_, .inl hframe⟩
      rw [hcrc]
      split
      · exact .inr rfl
      · exact .inl rfl
  | illegal => exact .inl ⟨.inl rfl, .inl rfl⟩
  | byte ht =>
    have hcounts := (parserStep_countsErrors ht).cntFrameErr
    rw [parserStep_frame ht]
    exact .inl ⟨.inl rfl, hcounts⟩
  | stored _ hw ht =>
    obtain ⟨hcrc, hframe⟩ := writePlace_counters hw ht
    exact .inl ⟨.inl hcrc, .inl hframe⟩
  | ignored => exact .inl ⟨.inl rfl, .inl rfl⟩
  | read => exact .inl ⟨.inl rfl, .inl rfl⟩

/-- Settles O53: commands, the illegal command, parser steps, and every step of the machine. -/
theorem countersCountTheirFailures : Obligations.CountersCountTheirFailures := by
  refine ⟨fun i s t => command_counts, fun s v rest t hin hi h => ?_, fun b s t h => ?_, fun s t => step_counters⟩
  · rw [step_write_cmd hin, runCommand_error hi] at h
    cases h
    exact ⟨rfl, rfl⟩
  · have hcounts := parserStep_countsErrors h
    refine ⟨?_, hcounts⟩
    rw [parserStep_frame h]

end Sys2Proof.Machine
end

section
/-! SUPPORT. The invariant of the block (10_state section 5, 20_memory section 6): it holds at reset, every step keeps
it, and in a state that has it a step never stops but at a byte of `IBUF` or `OBUF` that holds no value. -/

namespace Sys2Proof.Machine

/-! ## The invariant by name -/

/-- What the command unit keeps, one fact each. -/
structure CommandFacts (cfg : Params) (c : CommandUnit) : Prop where
  iLen : c.iLen.toNat ≤ cfg.bufCap
  oLen : c.oLen.toNat ≤ cfg.bufCap
  nextFid : c.nextFid ≠ 0
  cntCrcFail : c.cntCrcFail < 2 ^ cfg.cntW
  ibuf : Memory.wf cfg.bufCap c.ibuf = true
  obuf : Memory.wf cfg.bufCap c.obuf = true
  obufLen : c.obuf.length = c.oLen.toNat
  idxFile : IndexFile.wf c.idxFile = true
  err : c.err.toNat ≤ 8
  okErr : c.ok = false ∨ c.err = 0

theorem commandInv_iff (cfg : Params) (c : CommandUnit) : commandInv cfg c = true ↔ CommandFacts cfg c := by
  simp only [commandInv, Bool.and_eq_true, Bool.or_eq_true, Bool.not_eq_true', decide_eq_true_eq, bne_iff_ne,
    beq_iff_eq]
  constructor
  · rintro ⟨⟨⟨⟨⟨⟨⟨⟨⟨hi, ho⟩, hfid⟩, hcnt⟩, hibuf⟩, hobuf⟩, hlen⟩, hidx⟩, herr⟩, hok⟩
    exact ⟨hi, ho, hfid, hcnt, hibuf, hobuf, hlen, hidx, herr, hok⟩
  · rintro ⟨hi, ho, hfid, hcnt, hibuf, hobuf, hlen, hidx, herr, hok⟩
    exact ⟨⟨⟨⟨⟨⟨⟨⟨⟨hi, ho⟩, hfid⟩, hcnt⟩, hibuf⟩, hobuf⟩, hlen⟩, hidx⟩, herr⟩, hok⟩

/-- What the parser unit keeps: its own invariant, and `FBUF` and the counter in range. -/
structure ParserKept (cfg : Params) (p : ParserUnit) : Prop where
  facts : parserInv p = true
  fbuf : Memory.wf Config.fbufCap p.fbuf = true
  cntFrameErr : p.cntFrameErr < 2 ^ cfg.cntW

theorem inv_iff (s : State) :
    s.inv = true ↔ s.cfg.ok = true ∧ CommandFacts s.cfg s.cmd ∧ ParserKept s.cfg s.par := by
  simp only [State.inv, Bool.and_eq_true, commandInv_iff, decide_eq_true_eq]
  constructor
  · rintro ⟨⟨⟨⟨hcfg, hcmd⟩, hfacts⟩, hfbuf⟩, hcnt⟩
    exact ⟨hcfg, hcmd, hfacts, hfbuf, hcnt⟩
  · rintro ⟨hcfg, hcmd, hfacts, hfbuf, hcnt⟩
    exact ⟨⟨⟨⟨hcfg, hcmd⟩, hfacts⟩, hfbuf⟩, hcnt⟩

/-! ## Reset -/

theorem commandFacts_reset (cfg : Params) : CommandFacts cfg resetCommandUnit where
  iLen := Nat.zero_le _
  oLen := Nat.zero_le _
  nextFid := by decide
  cntCrcFail := Nat.two_pow_pos _
  ibuf := rfl
  obuf := rfl
  obufLen := rfl
  idxFile := rfl
  err := Nat.zero_le _
  okErr := .inl rfl

theorem parserKept_reset (cfg : Params) : ParserKept cfg resetParserUnit where
  facts := rfl
  fbuf := rfl
  cntFrameErr := Nat.two_pow_pos _

/-- Every reset of a machine with parameters in range has the invariant. -/
theorem resetBlock_inv {s : State} (hcfg : s.cfg.ok = true) : (resetBlock s).inv = true :=
  (inv_iff _).2 ⟨hcfg, commandFacts_reset _, parserKept_reset _⟩

/-- Settles O56: `State.reset` is the reset of itself, its parameters in range. -/
theorem resetStateIsInvariant : Obligations.ResetStateIsInvariant :=
  ⟨resetBlock_inv (s := State.reset) (by decide), fun _ => resetBlock_inv⟩

/-! ## The command unit -/

/-- The codes of R221 are at most 0x08. -/
theorem CmdError.toNat_code_le (e : CmdError) : e.code.toNat ≤ 8 := by
  cases e <;> decide

/-- A counter's increment stays below its modulus. -/
theorem countUp_lt (w n : Nat) : countUp w n < 2 ^ w := Nat.mod_lt _ (Nat.two_pow_pos w)

section
variable {s u : State}

theorem commandFacts_succeed (h : CommandFacts s.cfg s.cmd) : CommandFacts (succeed s).cfg (succeed s).cmd :=
  { h with err := Nat.zero_le _, okErr := .inr rfl }

theorem commandFacts_raise (e : CmdError) (h : CommandFacts s.cfg s.cmd) :
    CommandFacts (raise e s).cfg (raise e s).cmd :=
  { h with err := CmdError.toNat_code_le e, okErr := .inl rfl }

theorem commandFacts_raiseCrcDrop (h : CommandFacts s.cfg s.cmd) :
    CommandFacts (raiseCrcDrop s).cfg (raiseCrcDrop s).cmd :=
  { h with cntCrcFail := countUp_lt _ _, err := CmdError.toNat_code_le .crc, okErr := .inl rfl }

theorem commandFacts_setCrc (v : Half) (h : CommandFacts s.cfg s.cmd) :
    CommandFacts (setCrc v s).cfg (setCrc v s).cmd :=
  { h with }

/-- A string that fits is listed by `OBUF` from byte 0 on, all of it. -/
theorem commandFacts_setOutput {o : List Byte} (hcfg : s.cfg.ok = true) (hfits : o.length ≤ s.cfg.bufCap)
    (h : CommandFacts s.cfg s.cmd) : CommandFacts (setOutput o s).cfg (setOutput o s).cmd := by
  obtain ⟨-, hcap, -⟩ := params_ranges hcfg
  have hlen : (setOutput o s).cmd.oLen.toNat = o.length := (outputIs_setOutput o s (by omega)).1
  exact { h with
    oLen := hlen.trans_le hfits
    obuf := Memory.wf_ofBytes o _ hfits
    obufLen := (Memory.length_ofBytes o 0).trans hlen.symm }

theorem commandFacts_takeFrameId (h : CommandFacts s.cfg s.cmd) :
    CommandFacts (takeFrameId s).cfg (takeFrameId s).cmd := by
  have hfid := (fidStep_takeFrameId s).ne_zero h.nextFid
  rw [takeFrameId_eq] at hfid ⊢
  exact { h with nextFid := hfid }

theorem commandFacts_deliverHeader (m : List Byte) (h : CommandFacts s.cfg s.cmd) :
    CommandFacts (deliverHeader m s).cfg (deliverHeader m s).cmd :=
  { h with }

/-- A NACK lists at most 255 indices, which all have an entry of `IDX`. -/
theorem commandFacts_deliverNack (m : List Byte) (h : CommandFacts s.cfg s.cmd) :
    CommandFacts (deliverNack m s).cfg (deliverNack m s).cmd := by
  have hcount := (byteAt m 4).isLt
  exact { h with
    idxFile := IndexFile.wf_writeAll _ _ 0 (by rw [length_getHalves, Config.idxCap]; omega) h.idxFile }

theorem commandFacts_deliverDone (m : List Byte) (h : CommandFacts s.cfg s.cmd) :
    CommandFacts (deliverDone m s).cfg (deliverDone m s).cmd :=
  { h with }

/-- What a command delivers keeps the facts of the command unit. -/
theorem Delivers.commandFacts {i : Instr} (hd : Delivers i s u) (hcfg : s.cfg.ok = true)
    (h : CommandFacts s.cfg s.cmd) : CommandFacts u.cfg u.cmd := by
  have hdata (hu : DeliversData s u) : CommandFacts u.cfg u.cmd := by
    obtain ⟨m, o, v, hfits, rfl⟩ := hu
    exact commandFacts_setCrc v (commandFacts_setOutput (s := deliverHeader m s) hcfg hfits
      (commandFacts_deliverHeader m h))
  have hnack (hu : DeliversNack s u) : CommandFacts u.cfg u.cmd := by
    obtain ⟨m, v, rfl⟩ := hu
    exact commandFacts_setCrc v (commandFacts_deliverNack m h)
  have hdone (hu : DeliversDone s u) : CommandFacts u.cfg u.cmd := by
    obtain ⟨m, v, rfl⟩ := hu
    exact commandFacts_setCrc v (commandFacts_deliverDone m h)
  cases i with
  | crcCompute =>
    obtain ⟨v, rfl⟩ := hd
    exact commandFacts_setCrc v h
  | crcVerify =>
    obtain rfl := hd
    exact h
  | crcAppend | fragEncData | fragBuildNack | fragBuildDone =>
    obtain ⟨o, v, hfits, rfl⟩ := hd
    exact commandFacts_setCrc v (commandFacts_setOutput hcfg hfits h)
  | fragEncHdr | apiBuildTx | apiBuildAt =>
    obtain ⟨o, hfits, rfl⟩ := hd
    exact commandFacts_setOutput hcfg hfits h
  | apiBuildTxAuto | apiBuildAtAuto =>
    obtain ⟨o, hfits, rfl⟩ := hd
    exact commandFacts_setOutput (by rw [takeFrameId_cfg]; exact hcfg) hfits (commandFacts_takeFrameId h)
  | fragDecHdr =>
    obtain ⟨m, rfl⟩ := hd
    exact commandFacts_deliverHeader m h
  | fragParseData => exact hdata hd
  | fragParseNack => exact hnack hd
  | fragParseDone => exact hdone hd
  | fragParse => exact hd.elim hdata fun hd => hd.elim hnack hdone
  | _ => exact hd.elim

/-- However a command ends, the facts of the command unit are kept. -/
theorem CommandNext.commandFacts {i : Instr} (hn : CommandNext i s u) (hcfg : s.cfg.ok = true)
    (h : CommandFacts s.cfg s.cmd) : CommandFacts u.cfg u.cmd := by
  cases hn with
  | success hd => exact commandFacts_succeed (hd.commandFacts hcfg h)
  | failure e => exact commandFacts_raise e h
  | crcDrop => exact commandFacts_raiseCrcDrop h

/-- Every command keeps the invariant, SYS.RESET among them. -/
theorem exec_command_inv {i : Instr} (hfmt : i.format = .cmd) (hi : s.inv = true) (h : exec i s = .next u) :
    u.inv = true := by
  obtain ⟨hcfg, hcmd, hpar⟩ := (inv_iff s).1 hi
  by_cases hreset : i = .sysReset
  · subst hreset
    cases h
    exact resetBlock_inv hcfg
  · have hfacts := (exec_commandNext hfmt hreset u h).commandFacts hcfg hcmd
    rw [exec_command_frame hfmt hreset h] at hfacts ⊢
    exact (inv_iff _).2 ⟨hcfg, hfacts, hpar⟩

/-- Only the 255 entries of `IDX` are mapped. -/
theorem lt_of_placeAt_idx {cfg : Params} {a : HostAddr} {k : Nat} (h : placeAt cfg a = some (.idx k)) :
    k < Config.idxCap := by
  obtain hmem | ⟨i, hlt, -, hp⟩ | ⟨i, -, -, hp⟩ | ⟨i, -, -, hp⟩ := placeAt_cases h
  · simp [addressTable] at hmem
  · cases hp
    exact hlt
  all_goals cases hp

/-- Only the `BUF_CAP` bytes of `IBUF` are mapped. -/
theorem lt_of_placeAt_ibuf {cfg : Params} {a : HostAddr} {i : Nat} (h : placeAt cfg a = some (.ibuf i)) :
    i < cfg.bufCap := by
  obtain hmem | ⟨j, -, -, hp⟩ | ⟨j, hlt, -, hp⟩ | ⟨j, -, -, hp⟩ := placeAt_cases h
  · simp [addressTable] at hmem
  · cases hp
  · cases hp
    exact hlt
  · cases hp

/-- A write of a read/write place keeps the invariant: what has a bound is written within it. -/
theorem writePlace_inv {a : HostAddr} {p : Place} {w : Nat} {v : BitVec 64} (hp : placeAt s.cfg a = some p)
    (hw : p.writableWidth = some w) (hi : s.inv = true) (h : writePlace p v s = .next u) : u.inv = true := by
  obtain ⟨hcfg, hcmd, hpar⟩ := (inv_iff s).1 hi
  cases p with
  | cmd | rxData | ok | err | status | nextFid | cntCrcFail | cntFrameErr | crc | oLen | obuf => cases hw
  | iLen =>
    simp only [writePlace] at h
    split at h
    · rename_i hlen
      cases h
      exact (inv_iff _).2 ⟨hcfg, { hcmd with iLen := hlen }, hpar⟩
    · cases h
      exact hi
  | idx k =>
    cases h
    exact (inv_iff _).2 ⟨hcfg,
      { hcmd with idxFile := IndexFile.wf_write _ _ (lt_of_placeAt_idx hp) hcmd.idxFile }, hpar⟩
  | ibuf i =>
    cases h
    exact (inv_iff _).2 ⟨hcfg, { hcmd with ibuf := Memory.wf_write _ _ (lt_of_placeAt_ibuf hp) hcmd.ibuf }, hpar⟩
  | _ =>
    cases h
    exact (inv_iff _).2 ⟨hcfg, { hcmd with }, hpar⟩

end

/-! ## The parser unit -/

section
variable {s t : State}

/-- Consuming a byte keeps `FBUF` in canonical form: a body byte is stored within it, and nothing else is. -/
theorem consume_fbuf_wf {d : Byte} (hwf : Memory.wf Config.fbufCap s.par.fbuf = true) (h : consume d s = .next t) :
    Memory.wf Config.fbufCap t.par.fbuf = true := by
  unfold consume at h
  cases hp : s.par.pstate <;> rw [hp] at h
  case waitingForStart =>
    cases h
    exact hwf
  case lengthMsb =>
    cases h
    exact hwf
  case lengthLsb =>
    obtain ⟨-, hx⟩ | ⟨-, hx⟩ := consumeLengthLsb_cases d s <;> rw [hx] at h <;> cases h <;> exact hwf
  case frameData =>
    obtain ⟨hidx, rfl⟩ := consumeFrameData_next h
    exact Memory.wf_write d _ hidx hwf
  case checksum =>
    obtain ⟨-, rfl⟩ | ⟨-, f, -, hdis⟩ := consumeChecksum_next h
    · exact hwf
    · rw [dispatchFrame_eq f rfl] at hdis
      cases hdis
      exact hwf

/-- A parser step keeps `FBUF` in canonical form. -/
theorem parserStep_fbuf_wf {b : Byte} (hwf : Memory.wf Config.fbufCap s.par.fbuf = true)
    (h : exec (decodeRx b) s = .next t) : Memory.wf Config.fbufCap t.par.fbuf = true := by
  obtain ⟨-, rfl⟩ | ⟨-, rfl, -⟩ | ⟨-, -, -, rfl⟩ | ⟨-, -, -, hc⟩ := parserStep_next h
  · exact hwf
  · exact hwf
  · exact hwf
  · exact consume_fbuf_wf (s := setEsc false s) hwf hc

/-- A parser step keeps the invariant. -/
theorem parserStep_inv {b : Byte} (hi : s.inv = true) (h : exec (decodeRx b) s = .next t) : t.inv = true := by
  obtain ⟨hcfg, hcmd, hpar⟩ := (inv_iff s).1 hi
  have hkept : ParserKept s.cfg t.par := by
    refine ⟨parserStep_parserInv hpar.facts h, parserStep_fbuf_wf hpar.fbuf h, ?_⟩
    obtain hstays | hup := (parserStep_countsErrors h).cntFrameErr
    · rw [hstays]
      exact hpar.cntFrameErr
    · rw [hup]
      exact countUp_lt _ _
  rw [parserStep_frame h]
  exact (inv_iff _).2 ⟨hcfg, hcmd, hkept⟩

end

/-! ## The step -/

/-- Settles O55, along what one transaction can do: the block's units keep the invariant, and the host's transactions
and the outputs are no part of it. -/
theorem everyStepKeepsTheInvariant : Obligations.EveryStepKeepsTheInvariant := by
  intro s t hi h
  obtain ⟨-, rfl⟩ | ⟨act, rest, -, hnext⟩ := step_next h
  · exact hi
  have htaken : State.inv { s with input := rest } = true := hi
  obtain ⟨hcfg, hcmd, hpar⟩ := (inv_iff _).1 htaken
  cases hnext with
  | reset => exact resetBlock_inv hcfg
  | command _ hdec ht => exact exec_command_inv (decodeCmd_ok_iff.1 hdec).1 htaken ht
  | illegal => exact (inv_iff _).2 ⟨hcfg, commandFacts_raise .illegalCmd hcmd, hpar⟩
  | byte ht => exact parserStep_inv htaken ht
  | stored hp hw ht => exact writePlace_inv hp hw htaken ht
  | ignored => exact htaken
  | read => exact hi

/-! ## Results that go on -/

/-- A next state, or the fault of reading a byte of `IBUF` or `OBUF` that holds no value. -/
def GoesOn (r : Result) : Prop :=
  (∃ t, r = .next t) ∨ ∃ i, r = .fault (.noValue .ibuf i) ∨ r = .fault (.noValue .obuf i)

theorem goesOn_next (t : State) : GoesOn (.next t) := .inl ⟨t, rfl⟩

theorem goesOn_ite {c : Prop} [Decidable c] {r r' : Result} (h : c → GoesOn r) (h' : ¬c → GoesOn r') :
    GoesOn (if c then r else r') := by
  split
  · rename_i hc
    exact h hc
  · rename_i hc
    exact h' hc

/-- A read of bytes fails at one that holds no value. -/
theorem readBytes_error {sp : Space} {m : Memory} {a n : Nat} {f : Fault} (h : readBytes sp m a n = .error f) :
    ∃ i, f = .noValue sp i := by
  induction n generalizing a with
  | zero => cases h
  | succ n ih =>
    unfold readBytes at h
    split at h
    · cases h
      exact ⟨a, rfl⟩
    · split at h
      · rename_i hrest
        cases h
        exact ih hrest
      · cases h

section
variable {s : State}

theorem goesOn_withBytes {a n : Nat} {k : List Byte → Result} (hfits : a + n ≤ s.cfg.bufCap)
    (h : ∀ b, b.length = n → GoesOn (k b)) : GoesOn (withBytes a n s k) := by
  unfold withBytes
  rw [if_pos hfits]
  cases hr : readBytes .ibuf s.cmd.ibuf a n with
  | ok b => exact h b ((readBytes_ok_iff _ _ _ _ _).1 hr).1
  | error f =>
    obtain ⟨i, rfl⟩ := readBytes_error hr
    exact .inr ⟨i, .inl rfl⟩

theorem goesOn_storeOutput {o : List Byte} {k : State → Result} (hfits : o.length ≤ s.cfg.bufCap)
    (h : GoesOn (k (setOutput o s))) : GoesOn (storeOutput o s k) := by
  rw [storeOutput, if_pos hfits]
  exact h

theorem goesOn_storeMessage {m : List Byte} (hfits : m.length ≤ s.cfg.bufCap) : GoesOn (storeMessage m s) :=
  goesOn_storeOutput hfits (goesOn_next _)

theorem goesOn_sendFrame (body : List Byte) (s' : State) : GoesOn (sendFrame body s s') :=
  goesOn_ite (fun _ => goesOn_next _) fun _ => goesOn_next _

theorem goesOn_validate {tag : Byte} {len : Nat} {m : List Byte} {k : Result} (h : GoesOn k) :
    GoesOn (validate tag len m s k) :=
  goesOn_ite (fun _ => goesOn_next _) fun _ => goesOn_ite (fun _ => goesOn_next _) fun _ =>
    goesOn_ite (fun _ => goesOn_next _) fun _ => goesOn_ite (fun _ => goesOn_next _) fun _ => h

/-- A payload is at most 255 bytes, which fit every buffer. -/
theorem receiveData_goesOn (hcfg : s.cfg.ok = true) (m : List Byte) : GoesOn (receiveData m s) := by
  obtain ⟨hcap, -⟩ := params_ranges hcfg
  have hcount := (byteAt m 12).isLt
  have hslice := length_slice_le m 13 (byteAt m 12).toNat
  exact goesOn_validate (goesOn_storeOutput (s := deliverHeader m s) (by rw [deliverHeader_cfg]; omega)
    (goesOn_next _))

theorem receiveNack_goesOn (m : List Byte) : GoesOn (receiveNack m s) := goesOn_validate (goesOn_next _)

theorem receiveDone_goesOn (m : List Byte) : GoesOn (receiveDone m s) := goesOn_validate (goesOn_next _)

end

/-! ## Every instruction a step runs goes on -/

section
variable {s : State}

/-- A command of a state of the invariant: its input is within `IBUF`, and what it stores fits `OBUF`. -/
theorem exec_command_goesOn {i : Instr} (hfmt : i.format = .cmd) (hi : s.inv = true) : GoesOn (exec i s) := by
  obtain ⟨hcfg, hcmd, -⟩ := (inv_iff s).1 hi
  obtain ⟨hcap, -⟩ := params_ranges hcfg
  have hin {k : List Byte → Result} (h : ∀ inp, inp.length = inputLen s → GoesOn (k inp)) : GoesOn (withInput s k) :=
    goesOn_withBytes (by rw [Nat.zero_add]; exact hcmd.iLen) h
  have hreceive {n : Nat} {receive : List Byte → State → Result} (h : ∀ m, GoesOn (receive m s)) :
      GoesOn (receiveInput n receive s) :=
    goesOn_ite (fun _ => goesOn_next _) fun _ => hin fun m _ => h m
  cases i with
  | crcCompute => exact hin fun _ _ => goesOn_next _
  | crcVerify =>
    exact goesOn_ite (fun _ => goesOn_next _) fun _ => hin fun _ _ =>
      goesOn_ite (fun _ => goesOn_next _) fun _ => goesOn_next _
  | crcAppend => exact goesOn_ite (fun _ => goesOn_next _) fun _ => hin fun _ _ => goesOn_next _
  | fragEncHdr => exact goesOn_storeOutput (k := fun t => .next (succeed t)) (by rw [length_hdr]; omega) (goesOn_next _)
  | fragEncData =>
    refine goesOn_ite (fun _ => goesOn_next _) fun hrange => hin fun inp hlen => goesOn_storeMessage ?_
    rw [length_dataMsg]
    omega
  | fragBuildNack =>
    refine goesOn_storeMessage ?_
    have hcount := s.cmd.nCnt.isLt
    rw [length_nackMsg, indexList, IndexFile.length_take]
    omega
  | fragBuildDone =>
    refine goesOn_storeMessage ?_
    rw [doneMsg, length_crcAppend, length_doneHead]
    omega
  | fragDecHdr =>
    refine goesOn_ite (fun _ => goesOn_next _) fun _ => goesOn_withBytes ?_ fun _ _ => goesOn_next _
    rw [Config.headerSize]
    omega
  | fragParseData => exact hreceive (receiveData_goesOn hcfg)
  | fragParseNack => exact hreceive receiveNack_goesOn
  | fragParseDone => exact hreceive receiveDone_goesOn
  | fragParse =>
    exact goesOn_ite (fun _ => goesOn_next _) fun _ => goesOn_withBytes (by omega) fun _ _ =>
      goesOn_ite (fun _ => hreceive (receiveData_goesOn hcfg)) fun _ =>
        goesOn_ite (fun _ => hreceive receiveNack_goesOn) fun _ =>
          goesOn_ite (fun _ => hreceive receiveDone_goesOn) fun _ => goesOn_next _
  | apiBuildTx | apiBuildTxAuto | apiBuildAt | apiBuildAtAuto => exact hin fun _ _ => goesOn_sendFrame _ _
  | sysReset => exact goesOn_next _
  | frameTxRequest | frameAtCommand | frameRxPacket | frameExplicitRx | frameTxStatus | frameAtResponse | msgData
  | msgNack | msgDone | rxStart | rxEscape | rxByte => cases hfmt

/-- A parser step of a state of the invariant is the rule of R171, which always answers. -/
theorem parserStep_goesOn (b : Byte) (hi : s.inv = true) : GoesOn (exec (decodeRx b) s) := by
  obtain ⟨-, -, hpar⟩ := (inv_iff s).1 hi
  rw [parserStepIsTheRule s b hpar.facts]
  exact goesOn_next _

/-- A write goes on: it runs a command or a parser step, or stores, or is ignored. -/
theorem writePlace_goesOn (p : Place) (v : BitVec 64) (hi : s.inv = true) : GoesOn (writePlace p v s) := by
  cases p with
  | cmd =>
    show GoesOn (runCommand (v.setWidth 8) s)
    cases hdec : decode .cmd [v.setWidth 8] with
    | ok i =>
      rw [runCommand_ok hdec]
      exact exec_command_goesOn (decodeCmd_ok_iff.1 hdec).1 hi
    | error e =>
      rw [runCommand_error hdec]
      exact goesOn_next _
  | rxData => exact parserStep_goesOn _ hi
  | iLen => exact goesOn_ite (fun _ => goesOn_next _) fun _ => goesOn_next _
  | _ => exact goesOn_next _

/-- Reading a place gives a value, or is a byte of `IBUF` or `OBUF` that holds none. -/
theorem readPlace_cases (p : Place) (s : State) :
    (∃ v, readPlace p s = .ok v) ∨
    ∃ i, readPlace p s = .error (.noValue .ibuf i) ∨ readPlace p s = .error (.noValue .obuf i) := by
  cases p with
  | ibuf i =>
    cases hread : Memory.read s.cmd.ibuf i with
    | some b => exact .inl ⟨_, readCell_some hread⟩
    | none => exact .inr ⟨i, .inl (readCell_none hread)⟩
  | obuf i =>
    cases hread : Memory.read s.cmd.obuf i with
    | some b => exact .inl ⟨_, readCell_some hread⟩
    | none => exact .inr ⟨i, .inr (readCell_none hread)⟩
  | _ => exact .inl ⟨_, rfl⟩

/-- A host read goes on, or is of a byte that holds no value. -/
theorem step_read_goesOn {a : HostAddr} {rest : List HostAction} (hin : s.input = .read a :: rest) :
    GoesOn (step s) := by
  cases hp : placeAt s.cfg a with
  | none =>
    rw [step_read_unmapped hin hp]
    exact goesOn_next _
  | some p =>
    obtain ⟨v, hv⟩ | ⟨i, hv | hv⟩ := readPlace_cases p s
    · rw [step_read_ok hin hp hv]
      exact goesOn_next _
    · exact .inr ⟨i, .inl (step_read_error hin hp hv)⟩
    · exact .inr ⟨i, .inr (step_read_error hin hp hv)⟩

end

/-- Settles O54, by the kind of the next transaction. -/
theorem blockNeverStops : Obligations.BlockNeverStops := by
  intro s hi
  show GoesOn (step s)
  cases hin : s.input with
  | nil =>
    rw [step, hin]
    exact goesOn_next s
  | cons act rest =>
    have htaken : State.inv { s with input := rest } = true := hi
    cases act with
    | hardReset =>
      rw [step_hardReset hin]
      exact goesOn_next _
    | read a => exact step_read_goesOn hin
    | write a v =>
      cases hp : placeAt s.cfg a with
      | none =>
        rw [step_write_unmapped hin hp]
        exact goesOn_next _
      | some p =>
        rw [step_write hin hp]
        exact writePlace_goesOn p v htaken

end Sys2Proof.Machine
end
